-- ==== Sys2Proof/Word.lean ====
section
/-! DEFINITION. The two word types of the machine (00 R4, R5). -/

namespace Sys2Proof

/-- A byte: 8 bits, bit 0 the least significant (00 R5). -/
abbrev Byte := BitVec 8

/-- A 16-bit word: a CPU address, the program counter, the stack pointer (00 R4). -/
abbrev Word := BitVec 16

end Sys2Proof
end

