-- ==== Sys2Proof/Config.lean ====
section
/-! DEFINITION. What is fixed for one machine: the parameters of 00 R4, and the free values the spec leaves open.
The parameters are plain data, so that a statement holds for every setting of them (log entry 1). -/

namespace Sys2Proof

/-- A byte memory: its non-zero bytes, addresses strictly rising (log entry 12). -/
abbrev Memory := List Host.Cell

/-- The two admitted lengths of program ROM, 0x4000 and 0x8000 bytes (20 R89, decision D17). -/
inductive RomSize where
  | kib16
  | kib32
deriving DecidableEq, Repr, Inhabited

/-- An attached program ROM: an immutable byte array (10 R59). -/
structure PrgRom where
  size  : RomSize
  bytes : Memory
deriving DecidableEq, Repr, Inhabited

/-- The parameters of the model, 00 R4. -/
structure Config where
  /-- `PRG_ROM`, or absent (10 R59). -/
  prgRom : Option PrgRom
  /-- `CHR_INIT`, the 0x2000 bytes character memory starts with, or absent (10 R60). -/
  chrInit : Option Memory
  /-- `CycleTable`: pairs (opcode, base cycle count) that replace the default count of 30 R144 and R145. -/
  cycleTable : List (Nat × Nat)
  /-- `NametableMirror`: pairs (offset, offset) that replace the default, the identity (20 R98). -/
  nametableMirror : List (Nat × Nat)
  /-- `PageWrapPointers`, default false (20 R106). -/
  pageWrapPointers : Bool
deriving DecidableEq, Repr, Inhabited

/-- The default parameters: a 32 KiB program ROM and a character memory of which no byte is listed, the default
cycle counts, the identity mirror, no page wrap (00 R4; log entry 1). -/
def Config.default : Config where
  prgRom := some ⟨.kib32, []⟩
  chrInit := some []
  cycleTable := []
  nametableMirror := []
  pageWrapPointers := false

/-- A colour as the renderer receives it (10 R55). -/
structure Rgb where
  red   : Byte
  green : Byte
  blue  : Byte
deriving DecidableEq, Repr, Inhabited

/-- FREE VALUE. `MasterPalette`: the {R,G,B} triple of a 6-bit colour number (50 R361, decision D28, open; log entry 5).
It has no body here: no proof can see a value of it. -/
opaque Config.masterPalette : BitVec 6 → Rgb

/-- FREE VALUE. `KeypadInput(k)` at its `n`-th draw, when the host has supplied no byte for it (51 R437; log entry 7).
It has no body here: no proof can see a value of it. -/
opaque Config.keypadInput (k n : Nat) : Byte

end Sys2Proof
end

