-- ==== Sys2Proof/Syntax.lean ====
section
/-! DEFINITION. The instructions: one constructor for each row of spec/opcode_table.json (30 R144, R145). An operand is the
byte `v` or `d8`, the word `a16`, or for relative mode the signed displacement `disp` (30 R142; log entry 14). -/

namespace Sys2Proof

/-- One machine instruction with its operand. -/
inductive Instr where
  -- LDA, load accumulator: 41 R191
  | ldaImmediate (v : Byte)
  | ldaZeroPage (d8 : Byte)
  | ldaZeroPageX (d8 : Byte)
  | ldaAbsolute (a16 : Word)
  | ldaAbsoluteX (a16 : Word)
  | ldaAbsoluteY (a16 : Word)
  | ldaPreIndexedIndirect (d8 : Byte)
  | ldaPostIndexedIndirect (d8 : Byte)
  -- LDX, load X: 41 R192
  | ldxImmediate (v : Byte)
  | ldxZeroPage (d8 : Byte)
  | ldxZeroPageY (d8 : Byte)
  | ldxAbsolute (a16 : Word)
  | ldxAbsoluteY (a16 : Word)
  -- LDY, load Y: 41 R193
  | ldyImmediate (v : Byte)
  | ldyZeroPage (d8 : Byte)
  | ldyZeroPageX (d8 : Byte)
  | ldyAbsolute (a16 : Word)
  | ldyAbsoluteX (a16 : Word)
  -- STA, store accumulator: 41 R194
  | staZeroPage (d8 : Byte)
  | staZeroPageX (d8 : Byte)
  | staAbsolute (a16 : Word)
  | staAbsoluteX (a16 : Word)
  | staAbsoluteY (a16 : Word)
  | staPreIndexedIndirect (d8 : Byte)
  | staPostIndexedIndirect (d8 : Byte)
  -- STX, store X: 41 R195
  | stxZeroPage (d8 : Byte)
  | stxZeroPageY (d8 : Byte)
  | stxAbsolute (a16 : Word)
  -- STY, store Y: 41 R196
  | styZeroPage (d8 : Byte)
  | styZeroPageX (d8 : Byte)
  | styAbsolute (a16 : Word)
  -- TAX, A to X: 41 R197
  | tax
  -- TAY, A to Y: 41 R198
  | tay
  -- TXA, X to A: 41 R199
  | txa
  -- TYA, Y to A: 41 R200
  | tya
  -- TSX, SP to X: 41 R201
  | tsx
  -- TXS, X to SP: 41 R202
  | txs
  -- ADC, add with carry: 42 R220
  | adcImmediate (v : Byte)
  | adcZeroPage (d8 : Byte)
  | adcZeroPageX (d8 : Byte)
  | adcAbsolute (a16 : Word)
  | adcAbsoluteX (a16 : Word)
  | adcAbsoluteY (a16 : Word)
  | adcPreIndexedIndirect (d8 : Byte)
  | adcPostIndexedIndirect (d8 : Byte)
  -- SBC, subtract with borrow: 42 R221
  | sbcImmediate (v : Byte)
  | sbcZeroPage (d8 : Byte)
  | sbcZeroPageX (d8 : Byte)
  | sbcAbsolute (a16 : Word)
  | sbcAbsoluteX (a16 : Word)
  | sbcAbsoluteY (a16 : Word)
  | sbcPreIndexedIndirect (d8 : Byte)
  | sbcPostIndexedIndirect (d8 : Byte)
  -- CMP, compare A: 42 R222
  | cmpImmediate (v : Byte)
  | cmpZeroPage (d8 : Byte)
  | cmpZeroPageX (d8 : Byte)
  | cmpAbsolute (a16 : Word)
  | cmpAbsoluteX (a16 : Word)
  | cmpAbsoluteY (a16 : Word)
  | cmpPreIndexedIndirect (d8 : Byte)
  | cmpPostIndexedIndirect (d8 : Byte)
  -- CPX, compare X: 42 R223
  | cpxImmediate (v : Byte)
  | cpxZeroPage (d8 : Byte)
  | cpxAbsolute (a16 : Word)
  -- CPY, compare Y: 42 R224
  | cpyImmediate (v : Byte)
  | cpyZeroPage (d8 : Byte)
  | cpyAbsolute (a16 : Word)
  -- INC, increment memory: 42 R225
  | incZeroPage (d8 : Byte)
  | incZeroPageX (d8 : Byte)
  | incAbsolute (a16 : Word)
  | incAbsoluteX (a16 : Word)
  -- DEC, decrement memory: 42 R226
  | decZeroPage (d8 : Byte)
  | decZeroPageX (d8 : Byte)
  | decAbsolute (a16 : Word)
  | decAbsoluteX (a16 : Word)
  -- INX, increment X: 42 R227
  | inx
  -- INY, increment Y: 42 R228
  | iny
  -- DEX, decrement X: 42 R229
  | dex
  -- DEY, decrement Y: 42 R230
  | dey
  -- AND, and: 43 R245
  | andImmediate (v : Byte)
  | andZeroPage (d8 : Byte)
  | andZeroPageX (d8 : Byte)
  | andAbsolute (a16 : Word)
  | andAbsoluteX (a16 : Word)
  | andAbsoluteY (a16 : Word)
  | andPreIndexedIndirect (d8 : Byte)
  | andPostIndexedIndirect (d8 : Byte)
  -- ORA, or: 43 R246
  | oraImmediate (v : Byte)
  | oraZeroPage (d8 : Byte)
  | oraZeroPageX (d8 : Byte)
  | oraAbsolute (a16 : Word)
  | oraAbsoluteX (a16 : Word)
  | oraAbsoluteY (a16 : Word)
  | oraPreIndexedIndirect (d8 : Byte)
  | oraPostIndexedIndirect (d8 : Byte)
  -- EOR, exclusive or: 43 R247
  | eorImmediate (v : Byte)
  | eorZeroPage (d8 : Byte)
  | eorZeroPageX (d8 : Byte)
  | eorAbsolute (a16 : Word)
  | eorAbsoluteX (a16 : Word)
  | eorAbsoluteY (a16 : Word)
  | eorPreIndexedIndirect (d8 : Byte)
  | eorPostIndexedIndirect (d8 : Byte)
  -- BIT, bit test: 43 R248
  | bitZeroPage (d8 : Byte)
  | bitAbsolute (a16 : Word)
  -- ASL, shift left: 43 R249
  | aslAccumulator
  | aslZeroPage (d8 : Byte)
  | aslZeroPageX (d8 : Byte)
  | aslAbsolute (a16 : Word)
  | aslAbsoluteX (a16 : Word)
  -- LSR, shift right: 43 R250
  | lsrAccumulator
  | lsrZeroPage (d8 : Byte)
  | lsrZeroPageX (d8 : Byte)
  | lsrAbsolute (a16 : Word)
  | lsrAbsoluteX (a16 : Word)
  -- ROL, rotate left: 43 R251
  | rolAccumulator
  | rolZeroPage (d8 : Byte)
  | rolZeroPageX (d8 : Byte)
  | rolAbsolute (a16 : Word)
  | rolAbsoluteX (a16 : Word)
  -- ROR, rotate right: 43 R252
  | rorAccumulator
  | rorZeroPage (d8 : Byte)
  | rorZeroPageX (d8 : Byte)
  | rorAbsolute (a16 : Word)
  | rorAbsoluteX (a16 : Word)
  -- BCC, branch if C clear: 44 R271
  | bcc (disp : Int)
  -- BCS, branch if C set: 44 R272
  | bcs (disp : Int)
  -- BEQ, branch if Z set: 44 R273
  | beq (disp : Int)
  -- BNE, branch if Z clear: 44 R274
  | bne (disp : Int)
  -- BMI, branch if N set: 44 R275
  | bmi (disp : Int)
  -- BPL, branch if N clear: 44 R276
  | bpl (disp : Int)
  -- BVC, branch if V clear: 44 R277
  | bvc (disp : Int)
  -- BVS, branch if V set: 44 R278
  | bvs (disp : Int)
  -- JMP, jump: 44 R279
  | jmpAbsolute (a16 : Word)
  | jmpIndirectAbsolute (a16 : Word)
  -- JSR, jump to subroutine: 44 R280
  | jsr (a16 : Word)
  -- RTS, return from subroutine: 44 R281
  | rts
  -- PHA, push A: 45 R295
  | pha
  -- PHP, push P: 45 R296
  | php
  -- PLA, pull A: 45 R297
  | pla
  -- PLP, pull P: 45 R298
  | plp
  -- CLC, clear C: 45 R299
  | clc
  -- SEC, set C: 45 R300
  | sec
  -- CLI, clear I: 45 R301
  | cli
  -- SEI, set I: 45 R302
  | sei
  -- CLV, clear V: 45 R303
  | clv
  -- CLD, clear D: 45 R304
  | cld
  -- SED, set D: 45 R305
  | sed
  -- NOP, no operation: 45 R306
  | nop
  -- BRK, software break: 45 R307
  | brk
  -- RTI, return from interrupt: 45 R308
  | rti
  -- LAX, load A and X: 46 R325
  | laxZeroPage (d8 : Byte)
  | laxZeroPageY (d8 : Byte)
  | laxAbsolute (a16 : Word)
  | laxAbsoluteY (a16 : Word)
  | laxPreIndexedIndirect (d8 : Byte)
  | laxPostIndexedIndirect (d8 : Byte)
  -- SAX, store A and X: 46 R326
  | saxZeroPage (d8 : Byte)
  | saxZeroPageY (d8 : Byte)
  | saxAbsolute (a16 : Word)
  | saxPreIndexedIndirect (d8 : Byte)
  -- DCP, decrement and compare: 46 R327
  | dcpZeroPage (d8 : Byte)
  | dcpZeroPageX (d8 : Byte)
  | dcpAbsolute (a16 : Word)
  | dcpAbsoluteX (a16 : Word)
  | dcpAbsoluteY (a16 : Word)
  | dcpPreIndexedIndirect (d8 : Byte)
  | dcpPostIndexedIndirect (d8 : Byte)
  -- ISB, increment and subtract: 46 R328
  | isbZeroPage (d8 : Byte)
  | isbZeroPageX (d8 : Byte)
  | isbAbsolute (a16 : Word)
  | isbAbsoluteX (a16 : Word)
  | isbAbsoluteY (a16 : Word)
  | isbPreIndexedIndirect (d8 : Byte)
  | isbPostIndexedIndirect (d8 : Byte)
  -- SLO, shift left and or: 46 R329
  | sloZeroPage (d8 : Byte)
  | sloZeroPageX (d8 : Byte)
  | sloAbsolute (a16 : Word)
  | sloAbsoluteX (a16 : Word)
  | sloAbsoluteY (a16 : Word)
  | sloPreIndexedIndirect (d8 : Byte)
  | sloPostIndexedIndirect (d8 : Byte)
  -- SRE, shift right and exclusive or: 46 R330
  | sreZeroPage (d8 : Byte)
  | sreZeroPageX (d8 : Byte)
  | sreAbsolute (a16 : Word)
  | sreAbsoluteX (a16 : Word)
  | sreAbsoluteY (a16 : Word)
  | srePreIndexedIndirect (d8 : Byte)
  | srePostIndexedIndirect (d8 : Byte)
  -- RLA, rotate left and and: 46 R331
  | rlaZeroPage (d8 : Byte)
  | rlaZeroPageX (d8 : Byte)
  | rlaAbsolute (a16 : Word)
  | rlaAbsoluteX (a16 : Word)
  | rlaAbsoluteY (a16 : Word)
  | rlaPreIndexedIndirect (d8 : Byte)
  | rlaPostIndexedIndirect (d8 : Byte)
  -- RRA, rotate right and add: 46 R332
  | rraZeroPage (d8 : Byte)
  | rraZeroPageX (d8 : Byte)
  | rraAbsolute (a16 : Word)
  | rraAbsoluteX (a16 : Word)
  | rraAbsoluteY (a16 : Word)
  | rraPreIndexedIndirect (d8 : Byte)
  | rraPostIndexedIndirect (d8 : Byte)
deriving DecidableEq, Repr

end Sys2Proof
end

