-- ==== Sys2Proof/WellFormed.lean ====
section
/-! DEFINITION. Which instruction terms are instructions: a displacement must fit the offset byte (30 R142, R149). A byte
or a word operand fits by its type. -/

namespace Sys2Proof

/-- The displacement of a relative-mode instruction. -/
def Instr.displacement : Instr → Option Int
  | .ldaImmediate _ | .ldaZeroPage _ | .ldaZeroPageX _ | .ldaAbsolute _ | .ldaAbsoluteX _ | .ldaAbsoluteY _ |
      .ldaPreIndexedIndirect _ | .ldaPostIndexedIndirect _ => none
  | .ldxImmediate _ | .ldxZeroPage _ | .ldxZeroPageY _ | .ldxAbsolute _ | .ldxAbsoluteY _ => none
  | .ldyImmediate _ | .ldyZeroPage _ | .ldyZeroPageX _ | .ldyAbsolute _ | .ldyAbsoluteX _ => none
  | .staZeroPage _ | .staZeroPageX _ | .staAbsolute _ | .staAbsoluteX _ | .staAbsoluteY _ |
      .staPreIndexedIndirect _ | .staPostIndexedIndirect _ => none
  | .stxZeroPage _ | .stxZeroPageY _ | .stxAbsolute _ => none
  | .styZeroPage _ | .styZeroPageX _ | .styAbsolute _ => none
  | .tax => none
  | .tay => none
  | .txa => none
  | .tya => none
  | .tsx => none
  | .txs => none
  | .adcImmediate _ | .adcZeroPage _ | .adcZeroPageX _ | .adcAbsolute _ | .adcAbsoluteX _ | .adcAbsoluteY _ |
      .adcPreIndexedIndirect _ | .adcPostIndexedIndirect _ => none
  | .sbcImmediate _ | .sbcZeroPage _ | .sbcZeroPageX _ | .sbcAbsolute _ | .sbcAbsoluteX _ | .sbcAbsoluteY _ |
      .sbcPreIndexedIndirect _ | .sbcPostIndexedIndirect _ => none
  | .cmpImmediate _ | .cmpZeroPage _ | .cmpZeroPageX _ | .cmpAbsolute _ | .cmpAbsoluteX _ | .cmpAbsoluteY _ |
      .cmpPreIndexedIndirect _ | .cmpPostIndexedIndirect _ => none
  | .cpxImmediate _ | .cpxZeroPage _ | .cpxAbsolute _ => none
  | .cpyImmediate _ | .cpyZeroPage _ | .cpyAbsolute _ => none
  | .incZeroPage _ | .incZeroPageX _ | .incAbsolute _ | .incAbsoluteX _ => none
  | .decZeroPage _ | .decZeroPageX _ | .decAbsolute _ | .decAbsoluteX _ => none
  | .inx => none
  | .iny => none
  | .dex => none
  | .dey => none
  | .andImmediate _ | .andZeroPage _ | .andZeroPageX _ | .andAbsolute _ | .andAbsoluteX _ | .andAbsoluteY _ |
      .andPreIndexedIndirect _ | .andPostIndexedIndirect _ => none
  | .oraImmediate _ | .oraZeroPage _ | .oraZeroPageX _ | .oraAbsolute _ | .oraAbsoluteX _ | .oraAbsoluteY _ |
      .oraPreIndexedIndirect _ | .oraPostIndexedIndirect _ => none
  | .eorImmediate _ | .eorZeroPage _ | .eorZeroPageX _ | .eorAbsolute _ | .eorAbsoluteX _ | .eorAbsoluteY _ |
      .eorPreIndexedIndirect _ | .eorPostIndexedIndirect _ => none
  | .bitZeroPage _ | .bitAbsolute _ => none
  | .aslAccumulator | .aslZeroPage _ | .aslZeroPageX _ | .aslAbsolute _ | .aslAbsoluteX _ => none
  | .lsrAccumulator | .lsrZeroPage _ | .lsrZeroPageX _ | .lsrAbsolute _ | .lsrAbsoluteX _ => none
  | .rolAccumulator | .rolZeroPage _ | .rolZeroPageX _ | .rolAbsolute _ | .rolAbsoluteX _ => none
  | .rorAccumulator | .rorZeroPage _ | .rorZeroPageX _ | .rorAbsolute _ | .rorAbsoluteX _ => none
  | .bcc disp => some disp
  | .bcs disp => some disp
  | .beq disp => some disp
  | .bne disp => some disp
  | .bmi disp => some disp
  | .bpl disp => some disp
  | .bvc disp => some disp
  | .bvs disp => some disp
  | .jmpAbsolute _ | .jmpIndirectAbsolute _ => none
  | .jsr _ => none
  | .rts => none
  | .pha => none
  | .php => none
  | .pla => none
  | .plp => none
  | .clc => none
  | .sec => none
  | .cli => none
  | .sei => none
  | .clv => none
  | .cld => none
  | .sed => none
  | .nop => none
  | .brk => none
  | .rti => none
  | .laxZeroPage _ | .laxZeroPageY _ | .laxAbsolute _ | .laxAbsoluteY _ | .laxPreIndexedIndirect _ |
      .laxPostIndexedIndirect _ => none
  | .saxZeroPage _ | .saxZeroPageY _ | .saxAbsolute _ | .saxPreIndexedIndirect _ => none
  | .dcpZeroPage _ | .dcpZeroPageX _ | .dcpAbsolute _ | .dcpAbsoluteX _ | .dcpAbsoluteY _ |
      .dcpPreIndexedIndirect _ | .dcpPostIndexedIndirect _ => none
  | .isbZeroPage _ | .isbZeroPageX _ | .isbAbsolute _ | .isbAbsoluteX _ | .isbAbsoluteY _ |
      .isbPreIndexedIndirect _ | .isbPostIndexedIndirect _ => none
  | .sloZeroPage _ | .sloZeroPageX _ | .sloAbsolute _ | .sloAbsoluteX _ | .sloAbsoluteY _ |
      .sloPreIndexedIndirect _ | .sloPostIndexedIndirect _ => none
  | .sreZeroPage _ | .sreZeroPageX _ | .sreAbsolute _ | .sreAbsoluteX _ | .sreAbsoluteY _ |
      .srePreIndexedIndirect _ | .srePostIndexedIndirect _ => none
  | .rlaZeroPage _ | .rlaZeroPageX _ | .rlaAbsolute _ | .rlaAbsoluteX _ | .rlaAbsoluteY _ |
      .rlaPreIndexedIndirect _ | .rlaPostIndexedIndirect _ => none
  | .rraZeroPage _ | .rraZeroPageX _ | .rraAbsolute _ | .rraAbsoluteX _ | .rraAbsoluteY _ |
      .rraPreIndexedIndirect _ | .rraPostIndexedIndirect _ => none

/-- A displacement of a well-formed instruction is one a byte can hold: -128 to 127 (30 R142, R149). -/
def displacementFits (disp : Int) : Bool := decide (-128 ≤ disp) && decide (disp ≤ 127)

/-- The instruction has an encoding. -/
def Instr.wellFormed (i : Instr) : Bool := i.displacement.all displacementFits

end Sys2Proof
end

