-- ==== Sys2Proof/Decode.lean ====
section
/-! DEFINITION. The operation table, the encoder and the decoder (spec/30_encoding.md). Byte-order helpers stand here. -/

namespace Sys2Proof

/-- The 64 mnemonics (30 R143). -/
inductive Mnemonic where
  | LDA | LDX | LDY | STA | STX | STY | TAX | TAY | TXA | TYA | TSX | TXS
  | ADC | SBC | CMP | CPX | CPY | INC | DEC | INX | INY | DEX | DEY
  | AND | ORA | EOR | BIT | ASL | LSR | ROL | ROR
  | BCC | BCS | BEQ | BNE | BMI | BPL | BVC | BVS | JMP | JSR | RTS
  | PHA | PHP | PLA | PLP | CLC | SEC | CLI | SEI | CLV | CLD | SED | NOP | BRK | RTI
  | LAX | SAX | DCP | ISB | SLO | SRE | RLA | RRA
deriving DecidableEq, Repr

/-- The 13 addressing modes (30 R141). -/
inductive AddressingMode where
  | implied
  | accumulator
  | immediate
  | zeroPage
  | zeroPageX
  | zeroPageY
  | absolute
  | absoluteX
  | absoluteY
  | indirectAbsolute
  | preIndexedIndirect
  | postIndexedIndirect
  | relative
deriving DecidableEq, Repr

/-- The operand bytes of an addressing mode (30 R141). -/
def AddressingMode.operandBytes : AddressingMode → Nat
  | .implied | .accumulator => 0
  | .immediate | .zeroPage | .zeroPageX | .zeroPageY | .preIndexedIndirect | .postIndexedIndirect | .relative => 1
  | .absolute | .absoluteX | .absoluteY | .indirectAbsolute => 2

/-- A word from its bytes, the low byte first in memory (20 R105, 30 R142). -/
def wordOfBytes (lo hi : Byte) : Word := hi ++ lo

/-- Bits 7 to 0 of a word. -/
def lowByte (w : Word) : Byte := w.setWidth 8

/-- Bits 15 to 8 of a word. -/
def highByte (w : Word) : Byte := w.extractLsb' 8 8

/-- A row of the operation table: opcode byte, mnemonic, addressing mode, default base cycle count (30 R143 to R145). -/
structure OpcodeRow where
  opcode : Byte
  name   : Mnemonic
  mode   : AddressingMode
  cycles : Nat
deriving DecidableEq, Repr

/-- The row of an instruction (30 R144, R145). -/
def Instr.row : Instr → OpcodeRow
  | .ldaImmediate _ => ⟨0xA9, .LDA, .immediate, 2⟩
  | .ldaZeroPage _ => ⟨0xA5, .LDA, .zeroPage, 3⟩
  | .ldaZeroPageX _ => ⟨0xB5, .LDA, .zeroPageX, 4⟩
  | .ldaAbsolute _ => ⟨0xAD, .LDA, .absolute, 4⟩
  | .ldaAbsoluteX _ => ⟨0xBD, .LDA, .absoluteX, 4⟩
  | .ldaAbsoluteY _ => ⟨0xB9, .LDA, .absoluteY, 4⟩
  | .ldaPreIndexedIndirect _ => ⟨0xA1, .LDA, .preIndexedIndirect, 6⟩
  | .ldaPostIndexedIndirect _ => ⟨0xB1, .LDA, .postIndexedIndirect, 5⟩
  | .ldxImmediate _ => ⟨0xA2, .LDX, .immediate, 2⟩
  | .ldxZeroPage _ => ⟨0xA6, .LDX, .zeroPage, 3⟩
  | .ldxZeroPageY _ => ⟨0xB6, .LDX, .zeroPageY, 4⟩
  | .ldxAbsolute _ => ⟨0xAE, .LDX, .absolute, 4⟩
  | .ldxAbsoluteY _ => ⟨0xBE, .LDX, .absoluteY, 4⟩
  | .ldyImmediate _ => ⟨0xA0, .LDY, .immediate, 2⟩
  | .ldyZeroPage _ => ⟨0xA4, .LDY, .zeroPage, 3⟩
  | .ldyZeroPageX _ => ⟨0xB4, .LDY, .zeroPageX, 4⟩
  | .ldyAbsolute _ => ⟨0xAC, .LDY, .absolute, 4⟩
  | .ldyAbsoluteX _ => ⟨0xBC, .LDY, .absoluteX, 4⟩
  | .staZeroPage _ => ⟨0x85, .STA, .zeroPage, 3⟩
  | .staZeroPageX _ => ⟨0x95, .STA, .zeroPageX, 4⟩
  | .staAbsolute _ => ⟨0x8D, .STA, .absolute, 4⟩
  | .staAbsoluteX _ => ⟨0x9D, .STA, .absoluteX, 5⟩
  | .staAbsoluteY _ => ⟨0x99, .STA, .absoluteY, 5⟩
  | .staPreIndexedIndirect _ => ⟨0x81, .STA, .preIndexedIndirect, 6⟩
  | .staPostIndexedIndirect _ => ⟨0x91, .STA, .postIndexedIndirect, 6⟩
  | .stxZeroPage _ => ⟨0x86, .STX, .zeroPage, 3⟩
  | .stxZeroPageY _ => ⟨0x96, .STX, .zeroPageY, 4⟩
  | .stxAbsolute _ => ⟨0x8E, .STX, .absolute, 4⟩
  | .styZeroPage _ => ⟨0x84, .STY, .zeroPage, 3⟩
  | .styZeroPageX _ => ⟨0x94, .STY, .zeroPageX, 4⟩
  | .styAbsolute _ => ⟨0x8C, .STY, .absolute, 4⟩
  | .tax => ⟨0xAA, .TAX, .implied, 2⟩
  | .tay => ⟨0xA8, .TAY, .implied, 2⟩
  | .txa => ⟨0x8A, .TXA, .implied, 2⟩
  | .tya => ⟨0x98, .TYA, .implied, 2⟩
  | .tsx => ⟨0xBA, .TSX, .implied, 2⟩
  | .txs => ⟨0x9A, .TXS, .implied, 2⟩
  | .adcImmediate _ => ⟨0x69, .ADC, .immediate, 2⟩
  | .adcZeroPage _ => ⟨0x65, .ADC, .zeroPage, 3⟩
  | .adcZeroPageX _ => ⟨0x75, .ADC, .zeroPageX, 4⟩
  | .adcAbsolute _ => ⟨0x6D, .ADC, .absolute, 4⟩
  | .adcAbsoluteX _ => ⟨0x7D, .ADC, .absoluteX, 4⟩
  | .adcAbsoluteY _ => ⟨0x79, .ADC, .absoluteY, 4⟩
  | .adcPreIndexedIndirect _ => ⟨0x61, .ADC, .preIndexedIndirect, 6⟩
  | .adcPostIndexedIndirect _ => ⟨0x71, .ADC, .postIndexedIndirect, 5⟩
  | .sbcImmediate _ => ⟨0xE9, .SBC, .immediate, 2⟩
  | .sbcZeroPage _ => ⟨0xE5, .SBC, .zeroPage, 3⟩
  | .sbcZeroPageX _ => ⟨0xF5, .SBC, .zeroPageX, 4⟩
  | .sbcAbsolute _ => ⟨0xED, .SBC, .absolute, 4⟩
  | .sbcAbsoluteX _ => ⟨0xFD, .SBC, .absoluteX, 4⟩
  | .sbcAbsoluteY _ => ⟨0xF9, .SBC, .absoluteY, 4⟩
  | .sbcPreIndexedIndirect _ => ⟨0xE1, .SBC, .preIndexedIndirect, 6⟩
  | .sbcPostIndexedIndirect _ => ⟨0xF1, .SBC, .postIndexedIndirect, 5⟩
  | .cmpImmediate _ => ⟨0xC9, .CMP, .immediate, 2⟩
  | .cmpZeroPage _ => ⟨0xC5, .CMP, .zeroPage, 3⟩
  | .cmpZeroPageX _ => ⟨0xD5, .CMP, .zeroPageX, 4⟩
  | .cmpAbsolute _ => ⟨0xCD, .CMP, .absolute, 4⟩
  | .cmpAbsoluteX _ => ⟨0xDD, .CMP, .absoluteX, 4⟩
  | .cmpAbsoluteY _ => ⟨0xD9, .CMP, .absoluteY, 4⟩
  | .cmpPreIndexedIndirect _ => ⟨0xC1, .CMP, .preIndexedIndirect, 6⟩
  | .cmpPostIndexedIndirect _ => ⟨0xD1, .CMP, .postIndexedIndirect, 5⟩
  | .cpxImmediate _ => ⟨0xE0, .CPX, .immediate, 2⟩
  | .cpxZeroPage _ => ⟨0xE4, .CPX, .zeroPage, 3⟩
  | .cpxAbsolute _ => ⟨0xEC, .CPX, .absolute, 4⟩
  | .cpyImmediate _ => ⟨0xC0, .CPY, .immediate, 2⟩
  | .cpyZeroPage _ => ⟨0xC4, .CPY, .zeroPage, 3⟩
  | .cpyAbsolute _ => ⟨0xCC, .CPY, .absolute, 4⟩
  | .incZeroPage _ => ⟨0xE6, .INC, .zeroPage, 5⟩
  | .incZeroPageX _ => ⟨0xF6, .INC, .zeroPageX, 6⟩
  | .incAbsolute _ => ⟨0xEE, .INC, .absolute, 6⟩
  | .incAbsoluteX _ => ⟨0xFE, .INC, .absoluteX, 7⟩
  | .decZeroPage _ => ⟨0xC6, .DEC, .zeroPage, 5⟩
  | .decZeroPageX _ => ⟨0xD6, .DEC, .zeroPageX, 6⟩
  | .decAbsolute _ => ⟨0xCE, .DEC, .absolute, 6⟩
  | .decAbsoluteX _ => ⟨0xDE, .DEC, .absoluteX, 7⟩
  | .inx => ⟨0xE8, .INX, .implied, 2⟩
  | .iny => ⟨0xC8, .INY, .implied, 2⟩
  | .dex => ⟨0xCA, .DEX, .implied, 2⟩
  | .dey => ⟨0x88, .DEY, .implied, 2⟩
  | .andImmediate _ => ⟨0x29, .AND, .immediate, 2⟩
  | .andZeroPage _ => ⟨0x25, .AND, .zeroPage, 3⟩
  | .andZeroPageX _ => ⟨0x35, .AND, .zeroPageX, 4⟩
  | .andAbsolute _ => ⟨0x2D, .AND, .absolute, 4⟩
  | .andAbsoluteX _ => ⟨0x3D, .AND, .absoluteX, 4⟩
  | .andAbsoluteY _ => ⟨0x39, .AND, .absoluteY, 4⟩
  | .andPreIndexedIndirect _ => ⟨0x21, .AND, .preIndexedIndirect, 6⟩
  | .andPostIndexedIndirect _ => ⟨0x31, .AND, .postIndexedIndirect, 5⟩
  | .oraImmediate _ => ⟨0x09, .ORA, .immediate, 2⟩
  | .oraZeroPage _ => ⟨0x05, .ORA, .zeroPage, 3⟩
  | .oraZeroPageX _ => ⟨0x15, .ORA, .zeroPageX, 4⟩
  | .oraAbsolute _ => ⟨0x0D, .ORA, .absolute, 4⟩
  | .oraAbsoluteX _ => ⟨0x1D, .ORA, .absoluteX, 4⟩
  | .oraAbsoluteY _ => ⟨0x19, .ORA, .absoluteY, 4⟩
  | .oraPreIndexedIndirect _ => ⟨0x01, .ORA, .preIndexedIndirect, 6⟩
  | .oraPostIndexedIndirect _ => ⟨0x11, .ORA, .postIndexedIndirect, 5⟩
  | .eorImmediate _ => ⟨0x49, .EOR, .immediate, 2⟩
  | .eorZeroPage _ => ⟨0x45, .EOR, .zeroPage, 3⟩
  | .eorZeroPageX _ => ⟨0x55, .EOR, .zeroPageX, 4⟩
  | .eorAbsolute _ => ⟨0x4D, .EOR, .absolute, 4⟩
  | .eorAbsoluteX _ => ⟨0x5D, .EOR, .absoluteX, 4⟩
  | .eorAbsoluteY _ => ⟨0x59, .EOR, .absoluteY, 4⟩
  | .eorPreIndexedIndirect _ => ⟨0x41, .EOR, .preIndexedIndirect, 6⟩
  | .eorPostIndexedIndirect _ => ⟨0x51, .EOR, .postIndexedIndirect, 5⟩
  | .bitZeroPage _ => ⟨0x24, .BIT, .zeroPage, 3⟩
  | .bitAbsolute _ => ⟨0x2C, .BIT, .absolute, 4⟩
  | .aslAccumulator => ⟨0x0A, .ASL, .accumulator, 2⟩
  | .aslZeroPage _ => ⟨0x06, .ASL, .zeroPage, 5⟩
  | .aslZeroPageX _ => ⟨0x16, .ASL, .zeroPageX, 6⟩
  | .aslAbsolute _ => ⟨0x0E, .ASL, .absolute, 6⟩
  | .aslAbsoluteX _ => ⟨0x1E, .ASL, .absoluteX, 7⟩
  | .lsrAccumulator => ⟨0x4A, .LSR, .accumulator, 2⟩
  | .lsrZeroPage _ => ⟨0x46, .LSR, .zeroPage, 5⟩
  | .lsrZeroPageX _ => ⟨0x56, .LSR, .zeroPageX, 6⟩
  | .lsrAbsolute _ => ⟨0x4E, .LSR, .absolute, 6⟩
  | .lsrAbsoluteX _ => ⟨0x5E, .LSR, .absoluteX, 7⟩
  | .rolAccumulator => ⟨0x2A, .ROL, .accumulator, 2⟩
  | .rolZeroPage _ => ⟨0x26, .ROL, .zeroPage, 5⟩
  | .rolZeroPageX _ => ⟨0x36, .ROL, .zeroPageX, 6⟩
  | .rolAbsolute _ => ⟨0x2E, .ROL, .absolute, 6⟩
  | .rolAbsoluteX _ => ⟨0x3E, .ROL, .absoluteX, 7⟩
  | .rorAccumulator => ⟨0x6A, .ROR, .accumulator, 2⟩
  | .rorZeroPage _ => ⟨0x66, .ROR, .zeroPage, 5⟩
  | .rorZeroPageX _ => ⟨0x76, .ROR, .zeroPageX, 6⟩
  | .rorAbsolute _ => ⟨0x6E, .ROR, .absolute, 6⟩
  | .rorAbsoluteX _ => ⟨0x7E, .ROR, .absoluteX, 7⟩
  | .bcc _ => ⟨0x90, .BCC, .relative, 2⟩
  | .bcs _ => ⟨0xB0, .BCS, .relative, 2⟩
  | .beq _ => ⟨0xF0, .BEQ, .relative, 2⟩
  | .bne _ => ⟨0xD0, .BNE, .relative, 2⟩
  | .bmi _ => ⟨0x30, .BMI, .relative, 2⟩
  | .bpl _ => ⟨0x10, .BPL, .relative, 2⟩
  | .bvc _ => ⟨0x50, .BVC, .relative, 2⟩
  | .bvs _ => ⟨0x70, .BVS, .relative, 2⟩
  | .jmpAbsolute _ => ⟨0x4C, .JMP, .absolute, 3⟩
  | .jmpIndirectAbsolute _ => ⟨0x6C, .JMP, .indirectAbsolute, 5⟩
  | .jsr _ => ⟨0x20, .JSR, .absolute, 6⟩
  | .rts => ⟨0x60, .RTS, .implied, 6⟩
  | .pha => ⟨0x48, .PHA, .implied, 3⟩
  | .php => ⟨0x08, .PHP, .implied, 3⟩
  | .pla => ⟨0x68, .PLA, .implied, 4⟩
  | .plp => ⟨0x28, .PLP, .implied, 4⟩
  | .clc => ⟨0x18, .CLC, .implied, 2⟩
  | .sec => ⟨0x38, .SEC, .implied, 2⟩
  | .cli => ⟨0x58, .CLI, .implied, 2⟩
  | .sei => ⟨0x78, .SEI, .implied, 2⟩
  | .clv => ⟨0xB8, .CLV, .implied, 2⟩
  | .cld => ⟨0xD8, .CLD, .implied, 2⟩
  | .sed => ⟨0xF8, .SED, .implied, 2⟩
  | .nop => ⟨0xEA, .NOP, .implied, 2⟩
  | .brk => ⟨0x00, .BRK, .implied, 7⟩
  | .rti => ⟨0x40, .RTI, .implied, 6⟩
  | .laxZeroPage _ => ⟨0xA7, .LAX, .zeroPage, 3⟩
  | .laxZeroPageY _ => ⟨0xB7, .LAX, .zeroPageY, 4⟩
  | .laxAbsolute _ => ⟨0xAF, .LAX, .absolute, 4⟩
  | .laxAbsoluteY _ => ⟨0xBF, .LAX, .absoluteY, 4⟩
  | .laxPreIndexedIndirect _ => ⟨0xA3, .LAX, .preIndexedIndirect, 6⟩
  | .laxPostIndexedIndirect _ => ⟨0xB3, .LAX, .postIndexedIndirect, 5⟩
  | .saxZeroPage _ => ⟨0x87, .SAX, .zeroPage, 3⟩
  | .saxZeroPageY _ => ⟨0x97, .SAX, .zeroPageY, 4⟩
  | .saxAbsolute _ => ⟨0x8F, .SAX, .absolute, 4⟩
  | .saxPreIndexedIndirect _ => ⟨0x83, .SAX, .preIndexedIndirect, 6⟩
  | .dcpZeroPage _ => ⟨0xC7, .DCP, .zeroPage, 5⟩
  | .dcpZeroPageX _ => ⟨0xD7, .DCP, .zeroPageX, 6⟩
  | .dcpAbsolute _ => ⟨0xCF, .DCP, .absolute, 6⟩
  | .dcpAbsoluteX _ => ⟨0xDF, .DCP, .absoluteX, 7⟩
  | .dcpAbsoluteY _ => ⟨0xDB, .DCP, .absoluteY, 7⟩
  | .dcpPreIndexedIndirect _ => ⟨0xC3, .DCP, .preIndexedIndirect, 8⟩
  | .dcpPostIndexedIndirect _ => ⟨0xD3, .DCP, .postIndexedIndirect, 8⟩
  | .isbZeroPage _ => ⟨0xE7, .ISB, .zeroPage, 5⟩
  | .isbZeroPageX _ => ⟨0xF7, .ISB, .zeroPageX, 6⟩
  | .isbAbsolute _ => ⟨0xEF, .ISB, .absolute, 6⟩
  | .isbAbsoluteX _ => ⟨0xFF, .ISB, .absoluteX, 7⟩
  | .isbAbsoluteY _ => ⟨0xFB, .ISB, .absoluteY, 7⟩
  | .isbPreIndexedIndirect _ => ⟨0xE3, .ISB, .preIndexedIndirect, 8⟩
  | .isbPostIndexedIndirect _ => ⟨0xF3, .ISB, .postIndexedIndirect, 8⟩
  | .sloZeroPage _ => ⟨0x07, .SLO, .zeroPage, 5⟩
  | .sloZeroPageX _ => ⟨0x17, .SLO, .zeroPageX, 6⟩
  | .sloAbsolute _ => ⟨0x0F, .SLO, .absolute, 6⟩
  | .sloAbsoluteX _ => ⟨0x1F, .SLO, .absoluteX, 7⟩
  | .sloAbsoluteY _ => ⟨0x1B, .SLO, .absoluteY, 7⟩
  | .sloPreIndexedIndirect _ => ⟨0x03, .SLO, .preIndexedIndirect, 8⟩
  | .sloPostIndexedIndirect _ => ⟨0x13, .SLO, .postIndexedIndirect, 8⟩
  | .sreZeroPage _ => ⟨0x47, .SRE, .zeroPage, 5⟩
  | .sreZeroPageX _ => ⟨0x57, .SRE, .zeroPageX, 6⟩
  | .sreAbsolute _ => ⟨0x4F, .SRE, .absolute, 6⟩
  | .sreAbsoluteX _ => ⟨0x5F, .SRE, .absoluteX, 7⟩
  | .sreAbsoluteY _ => ⟨0x5B, .SRE, .absoluteY, 7⟩
  | .srePreIndexedIndirect _ => ⟨0x43, .SRE, .preIndexedIndirect, 8⟩
  | .srePostIndexedIndirect _ => ⟨0x53, .SRE, .postIndexedIndirect, 8⟩
  | .rlaZeroPage _ => ⟨0x27, .RLA, .zeroPage, 5⟩
  | .rlaZeroPageX _ => ⟨0x37, .RLA, .zeroPageX, 6⟩
  | .rlaAbsolute _ => ⟨0x2F, .RLA, .absolute, 6⟩
  | .rlaAbsoluteX _ => ⟨0x3F, .RLA, .absoluteX, 7⟩
  | .rlaAbsoluteY _ => ⟨0x3B, .RLA, .absoluteY, 7⟩
  | .rlaPreIndexedIndirect _ => ⟨0x23, .RLA, .preIndexedIndirect, 8⟩
  | .rlaPostIndexedIndirect _ => ⟨0x33, .RLA, .postIndexedIndirect, 8⟩
  | .rraZeroPage _ => ⟨0x67, .RRA, .zeroPage, 5⟩
  | .rraZeroPageX _ => ⟨0x77, .RRA, .zeroPageX, 6⟩
  | .rraAbsolute _ => ⟨0x6F, .RRA, .absolute, 6⟩
  | .rraAbsoluteX _ => ⟨0x7F, .RRA, .absoluteX, 7⟩
  | .rraAbsoluteY _ => ⟨0x7B, .RRA, .absoluteY, 7⟩
  | .rraPreIndexedIndirect _ => ⟨0x63, .RRA, .preIndexedIndirect, 8⟩
  | .rraPostIndexedIndirect _ => ⟨0x73, .RRA, .postIndexedIndirect, 8⟩

/-- The mnemonic of an instruction. -/
def Instr.name (i : Instr) : Mnemonic := i.row.name

/-- The addressing mode of an instruction. -/
def Instr.mode (i : Instr) : AddressingMode := i.row.mode

/-- The length of an instruction in bytes (30 R141, R148). -/
def Instr.length (i : Instr) : Nat := 1 + i.mode.operandBytes

/-- The offset byte that holds a displacement (30 R149): its low 8 bits. -/
def offsetByte (disp : Int) : Byte := BitVec.ofInt 8 disp

/-- The displacement an offset byte stands for: `sext_8` (00 R6, 30 R142). -/
def displacementOf (d8 : Byte) : Int := d8.toInt

/-- The operand bytes of an instruction in memory order (30 R140). -/
def Instr.operandBytes : Instr → List Byte
  | .ldaImmediate v => [v]
  | .ldaZeroPage d8 => [d8]
  | .ldaZeroPageX d8 => [d8]
  | .ldaAbsolute a16 => [lowByte a16, highByte a16]
  | .ldaAbsoluteX a16 => [lowByte a16, highByte a16]
  | .ldaAbsoluteY a16 => [lowByte a16, highByte a16]
  | .ldaPreIndexedIndirect d8 => [d8]
  | .ldaPostIndexedIndirect d8 => [d8]
  | .ldxImmediate v => [v]
  | .ldxZeroPage d8 => [d8]
  | .ldxZeroPageY d8 => [d8]
  | .ldxAbsolute a16 => [lowByte a16, highByte a16]
  | .ldxAbsoluteY a16 => [lowByte a16, highByte a16]
  | .ldyImmediate v => [v]
  | .ldyZeroPage d8 => [d8]
  | .ldyZeroPageX d8 => [d8]
  | .ldyAbsolute a16 => [lowByte a16, highByte a16]
  | .ldyAbsoluteX a16 => [lowByte a16, highByte a16]
  | .staZeroPage d8 => [d8]
  | .staZeroPageX d8 => [d8]
  | .staAbsolute a16 => [lowByte a16, highByte a16]
  | .staAbsoluteX a16 => [lowByte a16, highByte a16]
  | .staAbsoluteY a16 => [lowByte a16, highByte a16]
  | .staPreIndexedIndirect d8 => [d8]
  | .staPostIndexedIndirect d8 => [d8]
  | .stxZeroPage d8 => [d8]
  | .stxZeroPageY d8 => [d8]
  | .stxAbsolute a16 => [lowByte a16, highByte a16]
  | .styZeroPage d8 => [d8]
  | .styZeroPageX d8 => [d8]
  | .styAbsolute a16 => [lowByte a16, highByte a16]
  | .tax => []
  | .tay => []
  | .txa => []
  | .tya => []
  | .tsx => []
  | .txs => []
  | .adcImmediate v => [v]
  | .adcZeroPage d8 => [d8]
  | .adcZeroPageX d8 => [d8]
  | .adcAbsolute a16 => [lowByte a16, highByte a16]
  | .adcAbsoluteX a16 => [lowByte a16, highByte a16]
  | .adcAbsoluteY a16 => [lowByte a16, highByte a16]
  | .adcPreIndexedIndirect d8 => [d8]
  | .adcPostIndexedIndirect d8 => [d8]
  | .sbcImmediate v => [v]
  | .sbcZeroPage d8 => [d8]
  | .sbcZeroPageX d8 => [d8]
  | .sbcAbsolute a16 => [lowByte a16, highByte a16]
  | .sbcAbsoluteX a16 => [lowByte a16, highByte a16]
  | .sbcAbsoluteY a16 => [lowByte a16, highByte a16]
  | .sbcPreIndexedIndirect d8 => [d8]
  | .sbcPostIndexedIndirect d8 => [d8]
  | .cmpImmediate v => [v]
  | .cmpZeroPage d8 => [d8]
  | .cmpZeroPageX d8 => [d8]
  | .cmpAbsolute a16 => [lowByte a16, highByte a16]
  | .cmpAbsoluteX a16 => [lowByte a16, highByte a16]
  | .cmpAbsoluteY a16 => [lowByte a16, highByte a16]
  | .cmpPreIndexedIndirect d8 => [d8]
  | .cmpPostIndexedIndirect d8 => [d8]
  | .cpxImmediate v => [v]
  | .cpxZeroPage d8 => [d8]
  | .cpxAbsolute a16 => [lowByte a16, highByte a16]
  | .cpyImmediate v => [v]
  | .cpyZeroPage d8 => [d8]
  | .cpyAbsolute a16 => [lowByte a16, highByte a16]
  | .incZeroPage d8 => [d8]
  | .incZeroPageX d8 => [d8]
  | .incAbsolute a16 => [lowByte a16, highByte a16]
  | .incAbsoluteX a16 => [lowByte a16, highByte a16]
  | .decZeroPage d8 => [d8]
  | .decZeroPageX d8 => [d8]
  | .decAbsolute a16 => [lowByte a16, highByte a16]
  | .decAbsoluteX a16 => [lowByte a16, highByte a16]
  | .inx => []
  | .iny => []
  | .dex => []
  | .dey => []
  | .andImmediate v => [v]
  | .andZeroPage d8 => [d8]
  | .andZeroPageX d8 => [d8]
  | .andAbsolute a16 => [lowByte a16, highByte a16]
  | .andAbsoluteX a16 => [lowByte a16, highByte a16]
  | .andAbsoluteY a16 => [lowByte a16, highByte a16]
  | .andPreIndexedIndirect d8 => [d8]
  | .andPostIndexedIndirect d8 => [d8]
  | .oraImmediate v => [v]
  | .oraZeroPage d8 => [d8]
  | .oraZeroPageX d8 => [d8]
  | .oraAbsolute a16 => [lowByte a16, highByte a16]
  | .oraAbsoluteX a16 => [lowByte a16, highByte a16]
  | .oraAbsoluteY a16 => [lowByte a16, highByte a16]
  | .oraPreIndexedIndirect d8 => [d8]
  | .oraPostIndexedIndirect d8 => [d8]
  | .eorImmediate v => [v]
  | .eorZeroPage d8 => [d8]
  | .eorZeroPageX d8 => [d8]
  | .eorAbsolute a16 => [lowByte a16, highByte a16]
  | .eorAbsoluteX a16 => [lowByte a16, highByte a16]
  | .eorAbsoluteY a16 => [lowByte a16, highByte a16]
  | .eorPreIndexedIndirect d8 => [d8]
  | .eorPostIndexedIndirect d8 => [d8]
  | .bitZeroPage d8 => [d8]
  | .bitAbsolute a16 => [lowByte a16, highByte a16]
  | .aslAccumulator => []
  | .aslZeroPage d8 => [d8]
  | .aslZeroPageX d8 => [d8]
  | .aslAbsolute a16 => [lowByte a16, highByte a16]
  | .aslAbsoluteX a16 => [lowByte a16, highByte a16]
  | .lsrAccumulator => []
  | .lsrZeroPage d8 => [d8]
  | .lsrZeroPageX d8 => [d8]
  | .lsrAbsolute a16 => [lowByte a16, highByte a16]
  | .lsrAbsoluteX a16 => [lowByte a16, highByte a16]
  | .rolAccumulator => []
  | .rolZeroPage d8 => [d8]
  | .rolZeroPageX d8 => [d8]
  | .rolAbsolute a16 => [lowByte a16, highByte a16]
  | .rolAbsoluteX a16 => [lowByte a16, highByte a16]
  | .rorAccumulator => []
  | .rorZeroPage d8 => [d8]
  | .rorZeroPageX d8 => [d8]
  | .rorAbsolute a16 => [lowByte a16, highByte a16]
  | .rorAbsoluteX a16 => [lowByte a16, highByte a16]
  | .bcc disp => [offsetByte disp]
  | .bcs disp => [offsetByte disp]
  | .beq disp => [offsetByte disp]
  | .bne disp => [offsetByte disp]
  | .bmi disp => [offsetByte disp]
  | .bpl disp => [offsetByte disp]
  | .bvc disp => [offsetByte disp]
  | .bvs disp => [offsetByte disp]
  | .jmpAbsolute a16 => [lowByte a16, highByte a16]
  | .jmpIndirectAbsolute a16 => [lowByte a16, highByte a16]
  | .jsr a16 => [lowByte a16, highByte a16]
  | .rts => []
  | .pha => []
  | .php => []
  | .pla => []
  | .plp => []
  | .clc => []
  | .sec => []
  | .cli => []
  | .sei => []
  | .clv => []
  | .cld => []
  | .sed => []
  | .nop => []
  | .brk => []
  | .rti => []
  | .laxZeroPage d8 => [d8]
  | .laxZeroPageY d8 => [d8]
  | .laxAbsolute a16 => [lowByte a16, highByte a16]
  | .laxAbsoluteY a16 => [lowByte a16, highByte a16]
  | .laxPreIndexedIndirect d8 => [d8]
  | .laxPostIndexedIndirect d8 => [d8]
  | .saxZeroPage d8 => [d8]
  | .saxZeroPageY d8 => [d8]
  | .saxAbsolute a16 => [lowByte a16, highByte a16]
  | .saxPreIndexedIndirect d8 => [d8]
  | .dcpZeroPage d8 => [d8]
  | .dcpZeroPageX d8 => [d8]
  | .dcpAbsolute a16 => [lowByte a16, highByte a16]
  | .dcpAbsoluteX a16 => [lowByte a16, highByte a16]
  | .dcpAbsoluteY a16 => [lowByte a16, highByte a16]
  | .dcpPreIndexedIndirect d8 => [d8]
  | .dcpPostIndexedIndirect d8 => [d8]
  | .isbZeroPage d8 => [d8]
  | .isbZeroPageX d8 => [d8]
  | .isbAbsolute a16 => [lowByte a16, highByte a16]
  | .isbAbsoluteX a16 => [lowByte a16, highByte a16]
  | .isbAbsoluteY a16 => [lowByte a16, highByte a16]
  | .isbPreIndexedIndirect d8 => [d8]
  | .isbPostIndexedIndirect d8 => [d8]
  | .sloZeroPage d8 => [d8]
  | .sloZeroPageX d8 => [d8]
  | .sloAbsolute a16 => [lowByte a16, highByte a16]
  | .sloAbsoluteX a16 => [lowByte a16, highByte a16]
  | .sloAbsoluteY a16 => [lowByte a16, highByte a16]
  | .sloPreIndexedIndirect d8 => [d8]
  | .sloPostIndexedIndirect d8 => [d8]
  | .sreZeroPage d8 => [d8]
  | .sreZeroPageX d8 => [d8]
  | .sreAbsolute a16 => [lowByte a16, highByte a16]
  | .sreAbsoluteX a16 => [lowByte a16, highByte a16]
  | .sreAbsoluteY a16 => [lowByte a16, highByte a16]
  | .srePreIndexedIndirect d8 => [d8]
  | .srePostIndexedIndirect d8 => [d8]
  | .rlaZeroPage d8 => [d8]
  | .rlaZeroPageX d8 => [d8]
  | .rlaAbsolute a16 => [lowByte a16, highByte a16]
  | .rlaAbsoluteX a16 => [lowByte a16, highByte a16]
  | .rlaAbsoluteY a16 => [lowByte a16, highByte a16]
  | .rlaPreIndexedIndirect d8 => [d8]
  | .rlaPostIndexedIndirect d8 => [d8]
  | .rraZeroPage d8 => [d8]
  | .rraZeroPageX d8 => [d8]
  | .rraAbsolute a16 => [lowByte a16, highByte a16]
  | .rraAbsoluteX a16 => [lowByte a16, highByte a16]
  | .rraAbsoluteY a16 => [lowByte a16, highByte a16]
  | .rraPreIndexedIndirect d8 => [d8]
  | .rraPostIndexedIndirect d8 => [d8]

/-- The bytes of an instruction in memory order (30 R140). -/
def encode (i : Instr) : List Byte := i.row.opcode :: i.operandBytes

/-- What an opcode byte says: the instruction, or how its operand bytes complete it. -/
inductive Template where
  | none (i : Instr)
  | byte (build : Byte → Instr)
  | word (build : Word → Instr)

/-- Opcodes 0x00 to 0x0F by their low digit (30 R144 to R146). -/
def opcodeRow0 : Nat → Option Template
  | 0x0 => some (.none .brk)
  | 0x1 => some (.byte .oraPreIndexedIndirect)
  | 0x3 => some (.byte .sloPreIndexedIndirect)
  | 0x5 => some (.byte .oraZeroPage)
  | 0x6 => some (.byte .aslZeroPage)
  | 0x7 => some (.byte .sloZeroPage)
  | 0x8 => some (.none .php)
  | 0x9 => some (.byte .oraImmediate)
  | 0xA => some (.none .aslAccumulator)
  | 0xD => some (.word .oraAbsolute)
  | 0xE => some (.word .aslAbsolute)
  | 0xF => some (.word .sloAbsolute)
  | _ => Option.none

/-- Opcodes 0x10 to 0x1F by their low digit (30 R144 to R146). -/
def opcodeRow1 : Nat → Option Template
  | 0x0 => some (.byte fun d8 => .bpl (displacementOf d8))
  | 0x1 => some (.byte .oraPostIndexedIndirect)
  | 0x3 => some (.byte .sloPostIndexedIndirect)
  | 0x5 => some (.byte .oraZeroPageX)
  | 0x6 => some (.byte .aslZeroPageX)
  | 0x7 => some (.byte .sloZeroPageX)
  | 0x8 => some (.none .clc)
  | 0x9 => some (.word .oraAbsoluteY)
  | 0xB => some (.word .sloAbsoluteY)
  | 0xD => some (.word .oraAbsoluteX)
  | 0xE => some (.word .aslAbsoluteX)
  | 0xF => some (.word .sloAbsoluteX)
  | _ => Option.none

/-- Opcodes 0x20 to 0x2F by their low digit (30 R144 to R146). -/
def opcodeRow2 : Nat → Option Template
  | 0x0 => some (.word .jsr)
  | 0x1 => some (.byte .andPreIndexedIndirect)
  | 0x3 => some (.byte .rlaPreIndexedIndirect)
  | 0x4 => some (.byte .bitZeroPage)
  | 0x5 => some (.byte .andZeroPage)
  | 0x6 => some (.byte .rolZeroPage)
  | 0x7 => some (.byte .rlaZeroPage)
  | 0x8 => some (.none .plp)
  | 0x9 => some (.byte .andImmediate)
  | 0xA => some (.none .rolAccumulator)
  | 0xC => some (.word .bitAbsolute)
  | 0xD => some (.word .andAbsolute)
  | 0xE => some (.word .rolAbsolute)
  | 0xF => some (.word .rlaAbsolute)
  | _ => Option.none

/-- Opcodes 0x30 to 0x3F by their low digit (30 R144 to R146). -/
def opcodeRow3 : Nat → Option Template
  | 0x0 => some (.byte fun d8 => .bmi (displacementOf d8))
  | 0x1 => some (.byte .andPostIndexedIndirect)
  | 0x3 => some (.byte .rlaPostIndexedIndirect)
  | 0x5 => some (.byte .andZeroPageX)
  | 0x6 => some (.byte .rolZeroPageX)
  | 0x7 => some (.byte .rlaZeroPageX)
  | 0x8 => some (.none .sec)
  | 0x9 => some (.word .andAbsoluteY)
  | 0xB => some (.word .rlaAbsoluteY)
  | 0xD => some (.word .andAbsoluteX)
  | 0xE => some (.word .rolAbsoluteX)
  | 0xF => some (.word .rlaAbsoluteX)
  | _ => Option.none

/-- Opcodes 0x40 to 0x4F by their low digit (30 R144 to R146). -/
def opcodeRow4 : Nat → Option Template
  | 0x0 => some (.none .rti)
  | 0x1 => some (.byte .eorPreIndexedIndirect)
  | 0x3 => some (.byte .srePreIndexedIndirect)
  | 0x5 => some (.byte .eorZeroPage)
  | 0x6 => some (.byte .lsrZeroPage)
  | 0x7 => some (.byte .sreZeroPage)
  | 0x8 => some (.none .pha)
  | 0x9 => some (.byte .eorImmediate)
  | 0xA => some (.none .lsrAccumulator)
  | 0xC => some (.word .jmpAbsolute)
  | 0xD => some (.word .eorAbsolute)
  | 0xE => some (.word .lsrAbsolute)
  | 0xF => some (.word .sreAbsolute)
  | _ => Option.none

/-- Opcodes 0x50 to 0x5F by their low digit (30 R144 to R146). -/
def opcodeRow5 : Nat → Option Template
  | 0x0 => some (.byte fun d8 => .bvc (displacementOf d8))
  | 0x1 => some (.byte .eorPostIndexedIndirect)
  | 0x3 => some (.byte .srePostIndexedIndirect)
  | 0x5 => some (.byte .eorZeroPageX)
  | 0x6 => some (.byte .lsrZeroPageX)
  | 0x7 => some (.byte .sreZeroPageX)
  | 0x8 => some (.none .cli)
  | 0x9 => some (.word .eorAbsoluteY)
  | 0xB => some (.word .sreAbsoluteY)
  | 0xD => some (.word .eorAbsoluteX)
  | 0xE => some (.word .lsrAbsoluteX)
  | 0xF => some (.word .sreAbsoluteX)
  | _ => Option.none

/-- Opcodes 0x60 to 0x6F by their low digit (30 R144 to R146). -/
def opcodeRow6 : Nat → Option Template
  | 0x0 => some (.none .rts)
  | 0x1 => some (.byte .adcPreIndexedIndirect)
  | 0x3 => some (.byte .rraPreIndexedIndirect)
  | 0x5 => some (.byte .adcZeroPage)
  | 0x6 => some (.byte .rorZeroPage)
  | 0x7 => some (.byte .rraZeroPage)
  | 0x8 => some (.none .pla)
  | 0x9 => some (.byte .adcImmediate)
  | 0xA => some (.none .rorAccumulator)
  | 0xC => some (.word .jmpIndirectAbsolute)
  | 0xD => some (.word .adcAbsolute)
  | 0xE => some (.word .rorAbsolute)
  | 0xF => some (.word .rraAbsolute)
  | _ => Option.none

/-- Opcodes 0x70 to 0x7F by their low digit (30 R144 to R146). -/
def opcodeRow7 : Nat → Option Template
  | 0x0 => some (.byte fun d8 => .bvs (displacementOf d8))
  | 0x1 => some (.byte .adcPostIndexedIndirect)
  | 0x3 => some (.byte .rraPostIndexedIndirect)
  | 0x5 => some (.byte .adcZeroPageX)
  | 0x6 => some (.byte .rorZeroPageX)
  | 0x7 => some (.byte .rraZeroPageX)
  | 0x8 => some (.none .sei)
  | 0x9 => some (.word .adcAbsoluteY)
  | 0xB => some (.word .rraAbsoluteY)
  | 0xD => some (.word .adcAbsoluteX)
  | 0xE => some (.word .rorAbsoluteX)
  | 0xF => some (.word .rraAbsoluteX)
  | _ => Option.none

/-- Opcodes 0x80 to 0x8F by their low digit (30 R144 to R146). -/
def opcodeRow8 : Nat → Option Template
  | 0x1 => some (.byte .staPreIndexedIndirect)
  | 0x3 => some (.byte .saxPreIndexedIndirect)
  | 0x4 => some (.byte .styZeroPage)
  | 0x5 => some (.byte .staZeroPage)
  | 0x6 => some (.byte .stxZeroPage)
  | 0x7 => some (.byte .saxZeroPage)
  | 0x8 => some (.none .dey)
  | 0xA => some (.none .txa)
  | 0xC => some (.word .styAbsolute)
  | 0xD => some (.word .staAbsolute)
  | 0xE => some (.word .stxAbsolute)
  | 0xF => some (.word .saxAbsolute)
  | _ => Option.none

/-- Opcodes 0x90 to 0x9F by their low digit (30 R144 to R146). -/
def opcodeRow9 : Nat → Option Template
  | 0x0 => some (.byte fun d8 => .bcc (displacementOf d8))
  | 0x1 => some (.byte .staPostIndexedIndirect)
  | 0x4 => some (.byte .styZeroPageX)
  | 0x5 => some (.byte .staZeroPageX)
  | 0x6 => some (.byte .stxZeroPageY)
  | 0x7 => some (.byte .saxZeroPageY)
  | 0x8 => some (.none .tya)
  | 0x9 => some (.word .staAbsoluteY)
  | 0xA => some (.none .txs)
  | 0xD => some (.word .staAbsoluteX)
  | _ => Option.none

/-- Opcodes 0xA0 to 0xAF by their low digit (30 R144 to R146). -/
def opcodeRowA : Nat → Option Template
  | 0x0 => some (.byte .ldyImmediate)
  | 0x1 => some (.byte .ldaPreIndexedIndirect)
  | 0x2 => some (.byte .ldxImmediate)
  | 0x3 => some (.byte .laxPreIndexedIndirect)
  | 0x4 => some (.byte .ldyZeroPage)
  | 0x5 => some (.byte .ldaZeroPage)
  | 0x6 => some (.byte .ldxZeroPage)
  | 0x7 => some (.byte .laxZeroPage)
  | 0x8 => some (.none .tay)
  | 0x9 => some (.byte .ldaImmediate)
  | 0xA => some (.none .tax)
  | 0xC => some (.word .ldyAbsolute)
  | 0xD => some (.word .ldaAbsolute)
  | 0xE => some (.word .ldxAbsolute)
  | 0xF => some (.word .laxAbsolute)
  | _ => Option.none

/-- Opcodes 0xB0 to 0xBF by their low digit (30 R144 to R146). -/
def opcodeRowB : Nat → Option Template
  | 0x0 => some (.byte fun d8 => .bcs (displacementOf d8))
  | 0x1 => some (.byte .ldaPostIndexedIndirect)
  | 0x3 => some (.byte .laxPostIndexedIndirect)
  | 0x4 => some (.byte .ldyZeroPageX)
  | 0x5 => some (.byte .ldaZeroPageX)
  | 0x6 => some (.byte .ldxZeroPageY)
  | 0x7 => some (.byte .laxZeroPageY)
  | 0x8 => some (.none .clv)
  | 0x9 => some (.word .ldaAbsoluteY)
  | 0xA => some (.none .tsx)
  | 0xC => some (.word .ldyAbsoluteX)
  | 0xD => some (.word .ldaAbsoluteX)
  | 0xE => some (.word .ldxAbsoluteY)
  | 0xF => some (.word .laxAbsoluteY)
  | _ => Option.none

/-- Opcodes 0xC0 to 0xCF by their low digit (30 R144 to R146). -/
def opcodeRowC : Nat → Option Template
  | 0x0 => some (.byte .cpyImmediate)
  | 0x1 => some (.byte .cmpPreIndexedIndirect)
  | 0x3 => some (.byte .dcpPreIndexedIndirect)
  | 0x4 => some (.byte .cpyZeroPage)
  | 0x5 => some (.byte .cmpZeroPage)
  | 0x6 => some (.byte .decZeroPage)
  | 0x7 => some (.byte .dcpZeroPage)
  | 0x8 => some (.none .iny)
  | 0x9 => some (.byte .cmpImmediate)
  | 0xA => some (.none .dex)
  | 0xC => some (.word .cpyAbsolute)
  | 0xD => some (.word .cmpAbsolute)
  | 0xE => some (.word .decAbsolute)
  | 0xF => some (.word .dcpAbsolute)
  | _ => Option.none

/-- Opcodes 0xD0 to 0xDF by their low digit (30 R144 to R146). -/
def opcodeRowD : Nat → Option Template
  | 0x0 => some (.byte fun d8 => .bne (displacementOf d8))
  | 0x1 => some (.byte .cmpPostIndexedIndirect)
  | 0x3 => some (.byte .dcpPostIndexedIndirect)
  | 0x5 => some (.byte .cmpZeroPageX)
  | 0x6 => some (.byte .decZeroPageX)
  | 0x7 => some (.byte .dcpZeroPageX)
  | 0x8 => some (.none .cld)
  | 0x9 => some (.word .cmpAbsoluteY)
  | 0xB => some (.word .dcpAbsoluteY)
  | 0xD => some (.word .cmpAbsoluteX)
  | 0xE => some (.word .decAbsoluteX)
  | 0xF => some (.word .dcpAbsoluteX)
  | _ => Option.none

/-- Opcodes 0xE0 to 0xEF by their low digit (30 R144 to R146). -/
def opcodeRowE : Nat → Option Template
  | 0x0 => some (.byte .cpxImmediate)
  | 0x1 => some (.byte .sbcPreIndexedIndirect)
  | 0x3 => some (.byte .isbPreIndexedIndirect)
  | 0x4 => some (.byte .cpxZeroPage)
  | 0x5 => some (.byte .sbcZeroPage)
  | 0x6 => some (.byte .incZeroPage)
  | 0x7 => some (.byte .isbZeroPage)
  | 0x8 => some (.none .inx)
  | 0x9 => some (.byte .sbcImmediate)
  | 0xA => some (.none .nop)
  | 0xC => some (.word .cpxAbsolute)
  | 0xD => some (.word .sbcAbsolute)
  | 0xE => some (.word .incAbsolute)
  | 0xF => some (.word .isbAbsolute)
  | _ => Option.none

/-- Opcodes 0xF0 to 0xFF by their low digit (30 R144 to R146). -/
def opcodeRowF : Nat → Option Template
  | 0x0 => some (.byte fun d8 => .beq (displacementOf d8))
  | 0x1 => some (.byte .sbcPostIndexedIndirect)
  | 0x3 => some (.byte .isbPostIndexedIndirect)
  | 0x5 => some (.byte .sbcZeroPageX)
  | 0x6 => some (.byte .incZeroPageX)
  | 0x7 => some (.byte .isbZeroPageX)
  | 0x8 => some (.none .sed)
  | 0x9 => some (.word .sbcAbsoluteY)
  | 0xB => some (.word .isbAbsoluteY)
  | 0xD => some (.word .sbcAbsoluteX)
  | 0xE => some (.word .incAbsoluteX)
  | 0xF => some (.word .isbAbsoluteX)
  | _ => Option.none

/-- `OperationTable[opcode]` (30 R143): nothing for the 53 undefined bytes (30 R146). -/
def opcodeEntry (opcode : Byte) : Option Template :=
  match opcode.toNat / 16 with
  | 0x0 => opcodeRow0 (opcode.toNat % 16)
  | 0x1 => opcodeRow1 (opcode.toNat % 16)
  | 0x2 => opcodeRow2 (opcode.toNat % 16)
  | 0x3 => opcodeRow3 (opcode.toNat % 16)
  | 0x4 => opcodeRow4 (opcode.toNat % 16)
  | 0x5 => opcodeRow5 (opcode.toNat % 16)
  | 0x6 => opcodeRow6 (opcode.toNat % 16)
  | 0x7 => opcodeRow7 (opcode.toNat % 16)
  | 0x8 => opcodeRow8 (opcode.toNat % 16)
  | 0x9 => opcodeRow9 (opcode.toNat % 16)
  | 0xA => opcodeRowA (opcode.toNat % 16)
  | 0xB => opcodeRowB (opcode.toNat % 16)
  | 0xC => opcodeRowC (opcode.toNat % 16)
  | 0xD => opcodeRowD (opcode.toNat % 16)
  | 0xE => opcodeRowE (opcode.toNat % 16)
  | _ => opcodeRowF (opcode.toNat % 16)

/-- The outcome of decoding a byte list: an instruction with the bytes after it, or a rejection by name. -/
inductive Decoded where
  | instr (i : Instr) (rest : List Byte)
  /-- The first byte has no entry (30 R146). -/
  | invalidOpcode (opcode : Byte)
  /-- The list ends before the instruction does. -/
  | truncated
deriving DecidableEq, Repr

/-- Decode the instruction at the head of a byte list (30 R140 to R148). -/
def decode : List Byte → Decoded
  | [] => .truncated
  | opcode :: bytes =>
    match opcodeEntry opcode, bytes with
    | Option.none, _ => .invalidOpcode opcode
    | some (.none i), rest => .instr i rest
    | some (.byte build), d8 :: rest => .instr (build d8) rest
    | some (.byte _), [] => .truncated
    | some (.word build), lo :: hi :: rest => .instr (build (wordOfBytes lo hi)) rest
    | some (.word _), [_] => .truncated
    | some (.word _), [] => .truncated

/-- The bytes of an instruction given as one number, the first byte in bits 7 to 0; the bits above `nbits` are 0. Three
bytes, the longest instruction (30 R141). -/
def tableWordBytes (nbits w : Nat) : List Byte :=
  let v := w % 2 ^ nbits
  [BitVec.ofNat 8 v, BitVec.ofNat 8 (v / 0x100), BitVec.ofNat 8 (v / 0x10000)]

/-- The instruction the decoder reads from the bits `w` of a row of spec/opcode_table.json. -/
def decodeTableWord (nbits w : Nat) : Option Instr :=
  match decode (tableWordBytes nbits w) with
  | .instr i _ => some i
  | .invalidOpcode _ => Option.none
  | .truncated => Option.none

end Sys2Proof
end

