-- ==== Sys2Proof/Machine/State.lean ====
section
/-! DEFINITION. The state of the machine as plain data (spec/10_state.md), the reasons a step can stop, the outcome of an
operation, power-on and reset. -/

namespace Sys2Proof.Machine

/-- The resources a bus can find absent (60 R474). -/
inductive Resource where
  /-- "program ROM". -/
  | programRom
  /-- "character memory". -/
  | characterMemory
deriving DecidableEq, Repr

/-- The fault kinds the CORE can raise, each with its payload (60 R470). A fault is terminal. -/
inductive Fault where
  /-- Raised by the decode of a fetched opcode byte with no table entry (60 R471). Safe: the spec's own fault. -/
  | invalidOpcode (opcode : Byte)
  /-- Raised by a bus function called with an address outside its space; no access of the machine reaches it
  (60 R473, 20 R92, R102). Safe: the spec's own fault. -/
  | invalidBusAddress (address : Nat)
  /-- Raised by the CPU bus for program ROM space and by the PPU bus for pattern space while the memory behind it is
  absent (60 R474). Safe: the spec's own fault. -/
  | resourceNotConnected (name : Resource)
  /-- Raised by `push` when the decrement would leave page 1; carries the value not assigned (60 R475). Safe: the
  spec's own fault. -/
  | stackPointerOverflow (value : Word)
  /-- Raised by `pop` when the increment would leave page 1; carries the value not assigned (60 R476). Safe: the
  spec's own fault. -/
  | stackPointerUnderflow (value : Word)
  /-- Raised by the DMA drain for a page of 8 or more (60 R478, decision D36). Safe: the spec's own fault. -/
  | dmaSourceOutOfRange (page : Byte)
deriving DecidableEq, Repr

/-- The reasons for which the MODEL declines to give a step a meaning. -/
inductive Refusal where
  /-- An instruction without a meaning in `exec`; no arm answers it today. Safe: nothing is claimed of such a step. -/
  | notModelled (mnemonic : String)
deriving DecidableEq, Repr

/-- The CPU registers (10 R20 to R25). -/
structure Cpu where
  /-- Accumulator, 10 R20. -/
  a : Byte
  /-- Index register X, 10 R21. -/
  x : Byte
  /-- Index register Y, 10 R22. -/
  y : Byte
  /-- Program counter, 10 R23. -/
  pc : Word
  /-- Stack pointer, biased to 0x0100..0x01FF, 10 R24. -/
  sp : Word
  /-- Status register, 10 R25. -/
  p : Byte
deriving DecidableEq, Repr, Inhabited

/-- The interrupt line: two sticky latches (10 R40 to R42). -/
structure InterruptLine where
  nmi : Bool
  irq : Bool
deriving DecidableEq, Repr, Inhabited

/-- A pixel of the image (10 R55): `black` is the power-on value {0,0,0}, `colour c` is `MasterPalette(c)`. -/
inductive Pixel where
  | black
  | colour (c : BitVec 6)
deriving DecidableEq, Repr, Inhabited

/-- A 240 by 256 grid: for each row that holds an entry, its entries by column, rows and columns strictly rising, no
entry equal to the value an unlisted place reads as (log entry 11). -/
abbrev Grid (α : Type) := List (Nat × List (Nat × α))

/-- The PPU registers and internal state (10 R45 to R56). -/
structure Ppu where
  /-- 10 R45. -/
  control : Byte
  /-- 10 R46. -/
  mask : Byte
  /-- 10 R47. -/
  status : Byte
  /-- 10 R48. -/
  scrollX : Byte
  /-- 10 R48. -/
  scrollY : Byte
  /-- 10 R49. -/
  spriteRamAddress : Byte
  /-- 10 R50. -/
  videoRamAddress : Word
  /-- 10 R51: false when the next write to port 5 or 6 is the first of its pair. -/
  writeToggle : Bool
  /-- 10 R52. -/
  readBuffer : Byte
  /-- 10 R53: 0..340. -/
  cycle : Nat
  /-- 10 R53: 0..261. -/
  line : Nat
  /-- 10 R54: 256 bytes, 64 records of 4. -/
  spriteRam : Memory
  /-- 10 R55. -/
  image : Grid Pixel
  /-- 10 R56. -/
  bgOpaque : Grid Bool
deriving DecidableEq, Repr, Inhabited

/-- The DMA controller (10 R64). -/
structure Dma where
  pending : Bool
  page : Byte
deriving DecidableEq, Repr, Inhabited

/-- One keypad port (10 R66). `inputs` and `draws` are the model's own, for the host input `KeypadInput(k)`
(51 R437; log entry 7). -/
structure Keypad where
  capturing : Bool
  latched : Byte
  /-- 0..7. -/
  cursor : Nat
  /-- The bytes the host answers to the coming draws, oldest first. -/
  inputs : List Byte
  /-- How many draws were made. -/
  draws : Nat
deriving DecidableEq, Repr, Inhabited

/-- What the host may do to the CORE between two master steps (51 R443; log entry 8). -/
inductive HostAction where
  /-- Sets `Int.irq` (10 R41). -/
  | irqAssert
  /-- Calls `CPU.reset()` (70 R531, R535). -/
  | cpuReset
deriving DecidableEq, Repr

/-- The output event `Render(Image)` (50 R353): how many were emitted and the image of the last one (log entry 10). -/
structure Render where
  count : Nat
  frame : Grid Pixel
deriving DecidableEq, Repr, Inhabited

/-- The whole state (10 R69), the parameters (00 R4) and the host's inputs and outputs (51 R443). -/
structure State where
  cpu : Cpu
  int : InterruptLine
  ppu : Ppu
  /-- Working RAM, 0x800 bytes (10 R58). -/
  wram : Memory
  /-- Character memory, 0x2000 bytes, or absent (10 R60). -/
  chr : Option Memory
  /-- Video RAM, 0x2000 bytes (10 R61). -/
  vram : Memory
  /-- Palette RAM, 32 bytes (10 R62). -/
  palette : Memory
  dma : Dma
  keypad1 : Keypad
  keypad2 : Keypad
  /-- `Machine.fault` (10 R68): a machine whose fault is not `none` has no further step. -/
  fault : Option Fault
  /-- The parameters; no step changes them. -/
  config : Config
  /-- The host actions before each coming master step, oldest first (log entry 8). -/
  schedule : List (List HostAction)
  render : Render
deriving DecidableEq, Repr, Inhabited

/-- How an operation ends: with a value and the state after it, or with the fault that ends the master step there
(00 R8). -/
inductive Result (α : Type) where
  | ok (value : α) (s : State)
  | fault (f : Fault)
deriving DecidableEq, Repr

/-- Go on after an operation that ended well; a fault ends all of it (00 R8). -/
def Result.bind {α β : Type} (r : Result α) (k : α → State → Result β) : Result β :=
  match r with
  | .ok v s => k v s
  | .fault f => .fault f

/-- The outcome of a step that ran an operation to its end. -/
def Result.outcome (r : Result Unit) : Host.Outcome State Fault Refusal :=
  match r with
  | .ok _ s => .next s
  | .fault f => .fault f

/-- A keypad at power-on (10 R66). -/
def Keypad.powerOn : Keypad :=
  { capturing := false, latched := 0, cursor := 0, inputs := [], draws := 0 }

/-- The state after power-on of a machine with the parameters `c` (70 R530, 10 R69; log entry 2). -/
def State.powerOn (c : Config) : State where
  cpu := { a := 0, x := 0, y := 0, pc := 0x0000, sp := 0x01FD, p := 0x34 }
  int := { nmi := false, irq := false }
  ppu :=
    { control := 0, mask := 0, status := 0, scrollX := 0, scrollY := 0, spriteRamAddress := 0,
      videoRamAddress := 0, writeToggle := false, readBuffer := 0, cycle := 0, line := 0,
      spriteRam := [], image := [], bgOpaque := [] }
  wram := []
  chr := c.chrInit
  vram := []
  palette := []
  dma := { pending := false, page := 0 }
  keypad1 := Keypad.powerOn
  keypad2 := Keypad.powerOn
  fault := none
  config := c
  schedule := []
  render := { count := 0, frame := [] }

/-- The machine right after reset (70 R531, R534): the power-on state of the default parameters with the CPU registers
that `CPU.reset()` sets. `PC` is the word at 0xFFFC, which is 0x0000 because the ROM lists no byte (log entries 1, 3). -/
def State.reset : State :=
  { State.powerOn Config.default with
    cpu := { a := 0x00, x := 0x00, y := 0x00, pc := 0x0000, sp := 0x01FD, p := 0x34 } }

end Sys2Proof.Machine
end

