-- ==== Sys2Proof/Machine/Memory.lean ====
section
/-! DEFINITION. Sparse data by key in one canonical form: the byte memories (10 R54 to R62), the image and its opacity
bits (10 R55, R56). An unlisted key reads as a default, and writing the default removes the entry (log entries 11, 12). -/

namespace Sys2Proof.Machine

/-- The value at key `k`: the default where `k` is not listed. -/
def cellsGet {α : Type} (dflt : α) (k : Nat) : List (Nat × α) → α
  | [] => dflt
  | (j, v) :: m => if j = k then v else cellsGet dflt k m

/-- Remove the entry of key `k`. -/
def cellsErase {α : Type} (k : Nat) : List (Nat × α) → List (Nat × α)
  | [] => []
  | (j, v) :: m => if j = k then cellsErase k m else (j, v) :: cellsErase k m

/-- Insert an entry before the first larger key. -/
def cellsInsert {α : Type} (k : Nat) (v : α) : List (Nat × α) → List (Nat × α)
  | [] => [(k, v)]
  | (j, w) :: m => if j < k then (j, w) :: cellsInsert k v m else (k, v) :: (j, w) :: m

/-- Store `v` at key `k`, keeping the canonical form. -/
def cellsSet {α : Type} [DecidableEq α] (dflt : α) (k : Nat) (v : α) (m : List (Nat × α)) : List (Nat × α) :=
  if v = dflt then cellsErase k m else cellsInsert k v (cellsErase k m)

/-- The canonical form: keys strictly rising and below `bound`, no entry equal to the default. -/
abbrev CellsWf {α : Type} [DecidableEq α] (dflt : α) (bound : Nat) (m : List (Nat × α)) : Prop :=
  m.Pairwise (fun c d => c.1 < d.1) ∧ ∀ c ∈ m, c.1 < bound ∧ c.2 ≠ dflt

/-- What a byte of a memory reads as when nothing is listed for it: 0x00 (decision D14; log entry 12). -/
def unlistedByte : Byte := 0x00

/-- The byte of `m` at offset `k`. -/
def byteAt (m : Memory) (k : Nat) : Byte := cellsGet unlistedByte k m

/-- `m` with byte `v` stored at offset `k`. -/
def setByte (m : Memory) (k : Nat) (v : Byte) : Memory := cellsSet unlistedByte k v m

/-- The entry of `g` at row `y`, column `x`. -/
def gridGet {α : Type} (dflt : α) (g : Grid α) (y x : Nat) : α := cellsGet dflt x (cellsGet [] y g)

/-- `g` with `v` stored at row `y`, column `x`. -/
def gridSet {α : Type} [DecidableEq α] (dflt : α) (g : Grid α) (y x : Nat) (v : α) : Grid α :=
  cellsSet [] y (cellsSet dflt x v (cellsGet [] y g)) g

/-- The canonical form of a grid of 240 rows and 256 columns. -/
abbrev GridWf {α : Type} [DecidableEq α] (dflt : α) (g : Grid α) : Prop :=
  CellsWf [] 240 g ∧ ∀ r ∈ g, CellsWf dflt 256 r.2

end Sys2Proof.Machine

namespace Sys2Proof

/-- A memory of `size` bytes is in canonical form. -/
abbrev Memory.wf (m : Memory) (size : Nat) : Prop := Machine.CellsWf Machine.unlistedByte size m

end Sys2Proof
end

