-- ==== Sys2Proof/Machine/PpuBus.lean ====
section
/-! DEFINITION. The PPU bus: 14-bit video addresses, their mirrors and the memories behind them (20 R95 to R103). -/

namespace Sys2Proof.Machine

/-- The replacement a parameter table lists for `k`, if any. -/
def lookupOverride (k : Nat) : List (Nat × Nat) → Option Nat
  | [] => none
  | (j, v) :: m => if j = k then some v else lookupOverride k m

/-- `NametableMirror` on an offset 0x000..0xFFF: the identity but for the listed offsets (20 R98, decision D20;
log entry 6). -/
def nametableMirror (c : Config) (offset : Nat) : Nat :=
  match lookupOverride offset c.nametableMirror with
  | some target => target % 0x1000
  | none => offset

/-- `PalIndex(b)`: every 32 bytes, with the four backdrop aliases (20 R100, R101). -/
def palIndex (b : Nat) : Nat :=
  let i := b % 0x20
  if i = 0x10 ∨ i = 0x14 ∨ i = 0x18 ∨ i = 0x1C then i - 0x10 else i

/-- A PPU-space address reduced to 14 bits (20 R95, decision D22). -/
def ppuAddress (a : Word) : Nat := a.toNat % 0x4000

/-- `PpuBusRead(a)` (20 R95): no side effect. -/
def ppuBusRead (a : Word) (s : State) : Result Byte :=
  let b := ppuAddress a
  if b < 0x2000 then
    match s.chr with
    | some m => .ok (byteAt m b) s
    | none => .fault (.resourceNotConnected .characterMemory)
  else if b < 0x3000 then .ok (byteAt s.vram (nametableMirror s.config (b - 0x2000))) s
  else if b < 0x3F00 then .ok (byteAt s.vram (nametableMirror s.config (b - 0x3000))) s
  else if b < 0x4000 then .ok (byteAt s.palette (palIndex b)) s
  else .fault (.invalidBusAddress b)

/-- `PpuBusWrite(a, v)` (20 R96): the cell that `PpuBusRead(a)` reads receives `v`. -/
def ppuBusWrite (a : Word) (v : Byte) (s : State) : Result Unit :=
  let b := ppuAddress a
  if b < 0x2000 then
    match s.chr with
    | some m => .ok () { s with chr := some (setByte m b v) }
    | none => .fault (.resourceNotConnected .characterMemory)
  else if b < 0x3000 then
    .ok () { s with vram := setByte s.vram (nametableMirror s.config (b - 0x2000)) v }
  else if b < 0x3F00 then
    .ok () { s with vram := setByte s.vram (nametableMirror s.config (b - 0x3000)) v }
  else if b < 0x4000 then .ok () { s with palette := setByte s.palette (palIndex b) v }
  else .fault (.invalidBusAddress b)

end Sys2Proof.Machine
end

