-- ==== Sys2Proof/Machine/PpuPorts.lean ====
section
/-! DEFINITION. The eight register ports of the PPU and the sprite write path of the DMA controller (50 R370 to R385). -/

namespace Sys2Proof.Machine

/-- `VramIncrement()` (50 R383). -/
def vramIncrement (s : State) : State :=
  { s with ppu := { s.ppu with
      videoRamAddress := s.ppu.videoRamAddress + (if s.ppu.control.getLsbD 2 then 32 else 1) } }

/-- `ReadStatus()`, port 2 (50 R374): the flags as they were, then vblank and the write toggle cleared. -/
def readStatus (s : State) : Result Byte :=
  .ok (s.ppu.status &&& 0xE0)
    { s with ppu := { s.ppu with status := s.ppu.status &&& 0x7F, writeToggle := false } }

/-- Port 4 read (50 R378): the address does not move. -/
def readSpriteData (s : State) : Result Byte :=
  .ok (byteAt s.ppu.spriteRam s.ppu.spriteRamAddress.toNat) s

/-- `ReadVramData()`, port 7 (50 R382): one byte of read-ahead, except in the palette range. -/
def readVramData (s : State) : Result Byte :=
  let a := s.ppu.videoRamAddress
  (ppuBusRead a s).bind fun v s =>
    if ppuAddress a ≥ 0x3F00 then .ok v (vramIncrement s)
    else .ok s.ppu.readBuffer (vramIncrement { s with ppu := { s.ppu with readBuffer := v } })

/-- `PpuPortRead(p)` (50 R370). The write-only ports 0, 1, 3, 5, 6 read 0x00 and change nothing (50 R384). -/
def ppuPortRead (p : Nat) (s : State) : Result Byte :=
  match p with
  | 2 => readStatus s
  | 4 => readSpriteData s
  | 7 => readVramData s
  | _ => .ok 0x00 s

/-- Port 4 write (50 R377): store and increment. -/
def writeSpriteData (v : Byte) (s : State) : State :=
  { s with ppu := { s.ppu with
      spriteRam := setByte s.ppu.spriteRam s.ppu.spriteRamAddress.toNat v
      spriteRamAddress := s.ppu.spriteRamAddress + 1 } }

/-- `WriteScroll(v)`, port 5 (50 R379): first write x, second write y. -/
def writeScroll (v : Byte) (s : State) : State :=
  if s.ppu.writeToggle then
    { s with ppu := { s.ppu with scrollY := v, writeToggle := false } }
  else
    { s with ppu := { s.ppu with scrollX := v, writeToggle := true } }

/-- `WriteVramAddress(v)`, port 6 (50 R380): first write the high byte with the low byte cleared, second write the low
byte. -/
def writeVramAddress (v : Byte) (s : State) : State :=
  if s.ppu.writeToggle then
    { s with ppu := { s.ppu with
        videoRamAddress := (s.ppu.videoRamAddress &&& 0xFF00) ||| v.setWidth 16
        writeToggle := false } }
  else
    { s with ppu := { s.ppu with videoRamAddress := v.setWidth 16 <<< 8, writeToggle := true } }

/-- Port 7 write (50 R381): store through the PPU bus, then increment. -/
def writeVramData (v : Byte) (s : State) : Result Unit :=
  (ppuBusWrite s.ppu.videoRamAddress v s).bind fun _ s => .ok () (vramIncrement s)

/-- `PpuPortWrite(p, v)` (50 R371). A write to port 2 changes nothing (50 R375). -/
def ppuPortWrite (p : Nat) (v : Byte) (s : State) : Result Unit :=
  match p with
  | 0 => .ok () { s with ppu := { s.ppu with control := v } }
  | 1 => .ok () { s with ppu := { s.ppu with mask := v } }
  | 3 => .ok () { s with ppu := { s.ppu with spriteRamAddress := v } }
  | 4 => .ok () (writeSpriteData v s)
  | 5 => .ok () (writeScroll v s)
  | 6 => .ok () (writeVramAddress v s)
  | 7 => writeVramData v s
  | _ => .ok () s

/-- `transfer_sprite_data(index, value)` (50 R385): the DMA controller's write path; the sprite address is not used. -/
def transferSpriteData (index : Nat) (v : Byte) (s : State) : State :=
  { s with ppu := { s.ppu with spriteRam := setByte s.ppu.spriteRam index v } }

end Sys2Proof.Machine
end

