-- ==== Sys2Proof/Machine/Devices.lean ====
section
/-! DEFINITION. The DMA controller and the two keypad ports (51 R430 to R437). -/

namespace Sys2Proof.Machine

/-- `Dma.request_transfer(hint)` (51 R430): latched, nothing is copied now; a later request replaces the page. -/
def requestTransfer (hint : Byte) (s : State) : State :=
  { s with dma := { pending := true, page := hint } }

/-- Copy the first `n` bytes at `base` of working RAM into sprite RAM, in rising order (51 R431). -/
def copyToSpriteRam (base : Nat) : Nat → State → State
  | 0, s => s
  | n + 1, s =>
    let t := copyToSpriteRam base n s
    transferSpriteData n (byteAt t.wram (base + n)) t

/-- `Dma.transfer_if_requested()` (51 R431): read from working RAM directly, 256 bytes, then the request is cleared. A
page of 8 or more is no page of working RAM (51 R432). -/
def transferIfRequested (s : State) : Result Unit :=
  if s.dma.pending then
    if s.dma.page.toNat ≥ 8 then .fault (.dmaSourceOutOfRange s.dma.page)
    else
      let t := copyToSpriteRam (s.dma.page.toNat * 0x100) 256 s
      .ok () { t with dma := { t.dma with pending := false } }
  else .ok () s

/-- `KeypadInput(k)`: the next byte the host supplied, else a free value (51 R437; log entry 7). -/
def keypadDraw (k : Nat) (pad : Keypad) : Byte × Keypad :=
  match pad.inputs with
  | v :: rest => (v, { pad with inputs := rest, draws := pad.draws + 1 })
  | [] => (Config.keypadInput k pad.draws, { pad with draws := pad.draws + 1 })

/-- `Keypad[k].write(v)` (51 R435): bit 0 set begins capturing, bit 0 clear latches a byte and resets the cursor. -/
def keypadWrite (k : Nat) (v : Byte) (pad : Keypad) : Keypad :=
  if v.getLsbD 0 then { pad with capturing := true }
  else
    let d := keypadDraw k pad
    { d.2 with latched := d.1, capturing := false, cursor := 0 }

/-- The byte `Keypad[k].read()` returns (51 R436): bit `cursor` of the latched byte, the other bits 0. -/
def keypadBit (pad : Keypad) : Byte := (pad.latched >>> pad.cursor) &&& 1

/-- The keypad after `Keypad[k].read()` (51 R436): the cursor advances modulo 8. -/
def keypadAdvance (pad : Keypad) : Keypad := { pad with cursor := (pad.cursor + 1) % 8 }

end Sys2Proof.Machine
end

