-- ==== Sys2Proof/Machine/CpuBus.lean ====
section
/-! DEFINITION. The CPU bus: 16-bit addresses, their mirrors, the devices and memories behind them (20 R81 to R92). -/

namespace Sys2Proof.Machine

/-- The offset in working RAM of an address of its window (20 R83). -/
def wramOffset (a : Nat) : Nat := a % 0x800

/-- The offset in an attached program ROM of an address 0x8000..0xFFFF (20 R89): a half-size ROM is mirrored. -/
def prgOffset (size : RomSize) (a : Nat) : Nat :=
  match size with
  | .kib32 => a - 0x8000
  | .kib16 => (a - 0x8000) % 0x4000

/-- `read(address)` of the CPU bus, by the first matching row (20 R81); the last row is 20 R92. -/
def busRead (a : Nat) (s : State) : Result Byte :=
  if a < 0x2000 then .ok (byteAt s.wram (wramOffset a)) s
  else if a < 0x4000 then ppuPortRead (a % 8) s
  else if a = 0x4014 then .ok 0x00 s
  else if a = 0x4016 then .ok (keypadBit s.keypad1) { s with keypad1 := keypadAdvance s.keypad1 }
  else if a = 0x4017 then .ok (keypadBit s.keypad2) { s with keypad2 := keypadAdvance s.keypad2 }
  else if a < 0x8000 then .ok 0x00 s
  else if a < 0x10000 then
    match s.config.prgRom with
    | some rom => .ok (byteAt rom.bytes (prgOffset rom.size a)) s
    | none => .fault (.resourceNotConnected .programRom)
  else .fault (.invalidBusAddress a)

/-- `write(address, value)` of the CPU bus, by the first matching row (20 R82); the last row is 20 R92. -/
def busWrite (a : Nat) (v : Byte) (s : State) : Result Unit :=
  if a < 0x2000 then .ok () { s with wram := setByte s.wram (wramOffset a) v }
  else if a < 0x4000 then ppuPortWrite (a % 8) v s
  else if a = 0x4014 then .ok () (requestTransfer v s)
  else if a = 0x4016 then .ok () { s with keypad1 := keypadWrite 1 v s.keypad1 }
  else if a = 0x4017 then .ok () { s with keypad2 := keypadWrite 2 v s.keypad2 }
  else if a < 0x8000 then .ok () s
  else if a < 0x10000 then
    match s.config.prgRom with
    | some _ => .ok () s
    | none => .fault (.resourceNotConnected .programRom)
  else .fault (.invalidBusAddress a)

/-- `MemRead(a, 1)` for a 16-bit address (20 R81). -/
def memRead (a : Word) (s : State) : Result Byte := busRead a.toNat s

/-- `MemWrite(a, 1, v)` for a 16-bit address (20 R82). -/
def memWrite (a : Word) (v : Byte) (s : State) : Result Unit := busWrite a.toNat v s

end Sys2Proof.Machine
end

