-- ==== Sys2Proof/Machine/Registers.lean ====
section
/-! DEFINITION. The writes of the CPU registers (10 R20 to R25), one accessor each. -/

namespace Sys2Proof.Machine

/-- `A <- v` (10 R20). -/
def State.setA (s : State) (v : Byte) : State := { s with cpu := { s.cpu with a := v } }

/-- `X <- v` (10 R21). -/
def State.setX (s : State) (v : Byte) : State := { s with cpu := { s.cpu with x := v } }

/-- `Y <- v` (10 R22). -/
def State.setY (s : State) (v : Byte) : State := { s with cpu := { s.cpu with y := v } }

/-- `PC <- v` (10 R23). -/
def State.setPc (s : State) (v : Word) : State := { s with cpu := { s.cpu with pc := v } }

/-- `SP <- v` (10 R24). -/
def State.setSp (s : State) (v : Word) : State := { s with cpu := { s.cpu with sp := v } }

/-- `P <- v` (10 R25). -/
def State.setP (s : State) (v : Byte) : State := { s with cpu := { s.cpu with p := v } }

end Sys2Proof.Machine
end

