-- ==== Sys2Proof/Machine/Flags.lean ====
section
/-! DEFINITION. The status register's flags (10 R25 to R33) and every flag computation of the instruction rules. -/

namespace Sys2Proof.Machine

/-- The eight bits of `P`, by the letters of 10 R25. -/
inductive Flag where
  | C | Z | I | D | B | R | V | N
deriving DecidableEq, Repr

/-- The bit of `P` that holds a flag (10 R25). -/
def Flag.bit : Flag → Nat
  | .C => 0
  | .Z => 1
  | .I => 2
  | .D => 3
  | .B => 4
  | .R => 5
  | .V => 6
  | .N => 7

/-- A flag of a status byte. -/
def flagOf (f : Flag) (p : Byte) : Bool := p.getLsbD f.bit

/-- A status byte with one flag written and every other bit kept. -/
def withFlag (f : Flag) (b : Bool) (p : Byte) : Byte :=
  if b then p ||| (1#8 <<< f.bit) else p &&& ~~~(1#8 <<< f.bit)

/-- `P.f`. -/
def State.flag (s : State) (f : Flag) : Bool := flagOf f s.cpu.p

/-- `P.f <- b`. -/
def State.setFlag (s : State) (f : Flag) (b : Bool) : State := s.setP (withFlag f b s.cpu.p)

/-- `SetNZ(v)` (00 R7): N from bit 7, Z from zero, no other flag. -/
def State.setNZ (s : State) (v : Byte) : State :=
  (s.setFlag .N (v.getLsbD 7)).setFlag .Z (v == 0)

/-- The carry as a number, 0 or 1. -/
def carryIn (s : State) : Nat := (s.flag .C).toNat

/-- The sum of ADC before it is reduced, 0 to 511 (42 R220). -/
def adcSum (a m : Byte) (c : Nat) : Nat := a.toNat + m.toNat + c

/-- The overflow of ADC: operands of one sign, result of the other (42 R220, decision D44). -/
def adcOverflow (a m r : Byte) : Bool := ((a ^^^ m) &&& 0x80 == 0) && ((a ^^^ r) &&& 0x80 != 0)

/-- ADC of byte `m`: A, C, V, N, Z (42 R220). `P.D` is not read (42 R232). -/
def addWithCarry (m : Byte) (s : State) : State :=
  let t := adcSum s.cpu.a m (carryIn s)
  let r := BitVec.ofNat 8 t
  (((s.setFlag .C (decide (t > 0xFF))).setFlag .V (adcOverflow s.cpu.a m r)).setA r).setNZ r

/-- The difference of SBC before it is reduced, -256 to 255 (42 R221). -/
def sbcDifference (a m : Byte) (c : Nat) : Int := (a.toNat : Int) - (m.toNat : Int) - 1 + (c : Int)

/-- The overflow of SBC: operands of different sign, result of the other sign than A (42 R221, decision D44). -/
def sbcOverflow (a m r : Byte) : Bool := ((a ^^^ m) &&& 0x80 != 0) && ((a ^^^ r) &&& 0x80 != 0)

/-- SBC of byte `m`: A, C, V, N, Z (42 R221). `P.D` is not read (42 R232). -/
def subtractWithBorrow (m : Byte) (s : State) : State :=
  let t := sbcDifference s.cpu.a m (carryIn s)
  let r := BitVec.ofInt 8 t
  (((s.setFlag .C (decide (0 ≤ t))).setFlag .V (sbcOverflow s.cpu.a m r)).setA r).setNZ r

/-- A compare of register byte `reg` with `m`: C, N, Z (42 R222 to R224, decision D43). -/
def compareWith (reg m : Byte) (s : State) : State :=
  let t := (reg.toNat : Int) - (m.toNat : Int)
  (s.setFlag .C (decide (0 ≤ t))).setNZ (BitVec.ofInt 8 t)

/-- BIT of byte `m`: Z from `A & m`, V and N from bits 6 and 7 of `m` (43 R248). -/
def bitTest (m : Byte) (s : State) : State :=
  ((s.setFlag .Z (s.cpu.a &&& m == 0)).setFlag .V (m.getLsbD 6)).setFlag .N (m.getLsbD 7)

/-- The byte and the carry that a shift or rotate leaves, from the byte and the carry before it. -/
structure Shifted where
  result : Byte
  carry  : Bool
deriving DecidableEq, Repr

/-- ASL (43 R249). -/
def shiftLeft (m : Byte) (_c : Bool) : Shifted := ⟨m <<< 1, m.getLsbD 7⟩

/-- LSR (43 R250). -/
def shiftRight (m : Byte) (_c : Bool) : Shifted := ⟨m >>> 1, m.getLsbD 0⟩

/-- ROL: the old carry enters bit 0 (43 R251). -/
def rotateLeft (m : Byte) (c : Bool) : Shifted := ⟨(m <<< 1) ||| BitVec.ofNat 8 c.toNat, m.getLsbD 7⟩

/-- ROR: the old carry enters bit 7 (43 R252). -/
def rotateRight (m : Byte) (c : Bool) : Shifted :=
  ⟨(m >>> 1) ||| (BitVec.ofNat 8 c.toNat <<< 7), m.getLsbD 0⟩

end Sys2Proof.Machine
end

