-- ==== Sys2Proof/Machine/Ops.lean ====
section
/-! DEFINITION. The named operations over memory and registers: words, fetches, the stack, interrupt entry and return,
polling, `CPU.reset()`. -/

namespace Sys2Proof.Machine

/-- `ReadWord(a)` (20 R106): low byte first, plain 16-bit successor. -/
def readWord (a : Word) (s : State) : Result Word :=
  (memRead a s).bind fun lo s =>
  (memRead (a + 1) s).bind fun hi s =>
  .ok (wordOfBytes lo hi) s

/-- The address of a pointer's high byte (20 R106): the plain successor, or the wrap inside the page when the switch
`PageWrapPointers` is on (log entry 13). -/
def pointerSuccessor (c : Config) (a : Word) : Word :=
  if c.pageWrapPointers then (a &&& 0xFF00) ||| ((a + 1) &&& 0x00FF) else a + 1

/-- The word a pointer at `a` holds, for the three indirect modes (20 R106, 40 R177 to R179). -/
def readPointer (a : Word) (s : State) : Result Word :=
  (memRead a s).bind fun lo s =>
  (memRead (pointerSuccessor s.config a) s).bind fun hi s =>
  .ok (wordOfBytes lo hi) s

/-- `Fetch()` (40 R165): the byte at `PC`, then `PC` advances modulo 2^16. -/
def fetch (s : State) : Result Byte :=
  (memRead s.cpu.pc s).bind fun b s => .ok b (s.setPc (s.cpu.pc + 1))

/-- `FetchWord()` (40 R166). -/
def fetchWord (s : State) : Result Word :=
  (fetch s).bind fun lo s =>
  (fetch s).bind fun hi s =>
  .ok (wordOfBytes lo hi) s

/-- The page-1 address `SP | 0x0100` (10 R34, R35). -/
def stackAddress (sp : Word) : Word := sp ||| 0x0100

/-- `Push(v)` (10 R34): the byte is written, then a decrement that would leave page 1 faults (60 R475). -/
def push (v : Byte) (s : State) : Result Unit :=
  (memWrite (stackAddress s.cpu.sp) v s).bind fun _ s =>
    if (s.cpu.sp.toNat : Int) - 1 < 0x0100 then .fault (.stackPointerOverflow (s.cpu.sp - 1))
    else .ok () (s.setSp (s.cpu.sp - 1))

/-- `Pop()` (10 R35): an increment that would leave page 1 faults before any read (60 R476). -/
def pop (s : State) : Result Byte :=
  if s.cpu.sp.toNat + 1 > 0x01FF then .fault (.stackPointerUnderflow (s.cpu.sp + 1))
  else
    let t := s.setSp (s.cpu.sp + 1)
    memRead (stackAddress t.cpu.sp) t

/-- `PushWord(w)` (10 R36): high byte first. -/
def pushWord (w : Word) (s : State) : Result Unit :=
  (push (highByte w) s).bind fun _ s => push (lowByte w) s

/-- `PopWord()` (10 R37): low byte first. -/
def popWord (s : State) : Result Word :=
  (pop s).bind fun lo s =>
  (pop s).bind fun hi s =>
  .ok (wordOfBytes lo hi) s

/-- The three-byte frame of an interrupt or BRK: `PC`, then `P` (60 R484, R487). -/
def pushFrame (s : State) : Result Unit :=
  (pushWord s.cpu.pc s).bind fun _ s => push s.cpu.p s

/-- The address of the NMI vector (20 R115). -/
def nmiVector : Word := 0xFFFA

/-- The address of the reset vector (20 R115). -/
def resetVector : Word := 0xFFFC

/-- The address of the IRQ and BRK vector (20 R115). -/
def irqVector : Word := 0xFFFE

/-- TAKING AN INTERRUPT (60 R484, R485), once the request is cleared: break flag cleared, frame pushed, I set, `PC`
from the vector. -/
def takeInterrupt (vector : Word) (s : State) : Result Unit :=
  (pushFrame (s.setFlag .B false)).bind fun _ s =>
  (readWord vector (s.setFlag .I true)).bind fun target s =>
  .ok () (s.setPc target)

/-- RETURNING FROM AN INTERRUPT (45 R308, 60 R488): `P` with bit 5 forced to 1, then `PC` as popped. -/
def returnFromInterrupt (s : State) : Result Unit :=
  (pop s).bind fun p s =>
  (popWord (s.setP (p ||| 0x20))).bind fun target s =>
  .ok () (s.setPc target)

/-- `ServiceNmi()` (60 R484). -/
def serviceNmi (s : State) : Result Unit :=
  takeInterrupt nmiVector { s with int := { s.int with nmi := false } }

/-- `ServiceIrq()` (60 R485). -/
def serviceIrq (s : State) : Result Unit :=
  takeInterrupt irqVector { s with int := { s.int with irq := false } }

/-- `HandleInterrupts()` (60 R483): NMI first, IRQ only while I is clear, at most one. -/
def handleInterrupts (s : State) : Result Unit :=
  if s.int.nmi then serviceNmi s
  else if s.int.irq && !s.flag .I then serviceIrq s
  else .ok () s

/-- `CPU.reset()` (70 R531): nothing else changes (70 R532). -/
def cpuReset (s : State) : Result Unit :=
  let t := ((((s.setA 0x00).setX 0x00).setY 0x00).setP 0x34).setSp 0x01FD
  (readWord resetVector t).bind fun target s => .ok () (s.setPc target)

/-- One host action between two master steps (51 R443; log entry 8). -/
def hostAction (h : HostAction) (s : State) : Result Unit :=
  match h with
  | .irqAssert => .ok () { s with int := { s.int with irq := true } }
  | .cpuReset => cpuReset s

/-- The host actions before one master step, in order. -/
def hostActions : List HostAction → State → Result Unit
  | [], s => .ok () s
  | h :: hs, s => (hostAction h s).bind fun _ s => hostActions hs s

end Sys2Proof.Machine
end

