-- ==== Sys2Proof/Machine/Operands.lean ====
section
/-! DEFINITION. The thirteen addressing modes (40 R167 to R181) and the shapes of access the instruction rules share. -/

namespace Sys2Proof.Machine

/-- An addressing mode with the operand bytes the instruction carries (30 R140 to R142). -/
inductive Form where
  | implied
  | accumulator
  | immediate (v : Byte)
  | zeroPage (d8 : Byte)
  | zeroPageX (d8 : Byte)
  | zeroPageY (d8 : Byte)
  | absolute (a16 : Word)
  | absoluteX (a16 : Word)
  | absoluteY (a16 : Word)
  | indirectAbsolute (a16 : Word)
  | preIndexedIndirect (d8 : Byte)
  | postIndexedIndirect (d8 : Byte)
  | relative (disp : Int)
deriving DecidableEq, Repr

/-- The three shapes of a resolved operand (40 R167). -/
inductive Operand where
  | none
  | value (v : Byte)
  | address (a : Word)
deriving DecidableEq, Repr

/-- A zero-page address: the byte as a 16-bit address (40 R171). -/
def zeroPageAddress (d : Byte) : Word := d.setWidth 16

/-- The address `a` plus an index byte, modulo 2^16 (40 R175, R176). -/
def indexedAddress (a : Word) (index : Byte) : Word := a + index.setWidth 16

/-- The target of a branch: `PC` after the operand fetch plus the displacement, modulo 2^16 (40 R180). -/
def branchTarget (pc : Word) (disp : Int) : Word := pc + BitVec.ofInt 16 disp

/-- `Resolve(mode)` (40 R167), after the operand bytes were fetched: the pointer reads of the mode and no others. -/
def resolve (form : Form) (s : State) : Result Operand :=
  match form with
  | .implied => .ok .none s
  | .accumulator => .ok .none s
  | .immediate v => .ok (.value v) s
  | .zeroPage d => .ok (.address (zeroPageAddress d)) s
  | .zeroPageX d => .ok (.address (zeroPageAddress (d + s.cpu.x))) s
  | .zeroPageY d => .ok (.address (zeroPageAddress (d + s.cpu.y))) s
  | .absolute a => .ok (.address a) s
  | .absoluteX a => .ok (.address (indexedAddress a s.cpu.x)) s
  | .absoluteY a => .ok (.address (indexedAddress a s.cpu.y)) s
  | .indirectAbsolute p => (readPointer p s).bind fun a s => .ok (.address a) s
  | .preIndexedIndirect d =>
    (readPointer (zeroPageAddress (d + s.cpu.x)) s).bind fun a s => .ok (.address a) s
  | .postIndexedIndirect d =>
    (readPointer (zeroPageAddress d) s).bind fun b s => .ok (.address (indexedAddress b s.cpu.y)) s
  | .relative disp => .ok (.address (branchTarget s.cpu.pc disp)) s

/-- `Load(operand)` (40 R181): a value as it is, one read at an address, the accumulator for no operand (40 R169). -/
def load (op : Operand) (s : State) : Result Byte :=
  match op with
  | .none => .ok s.cpu.a s
  | .value v => .ok v s
  | .address a => memRead a s

/-- Store a byte back to an operand: one write at an address, the accumulator for no operand (40 R169). No form that
stores resolves to a value. -/
def storeBack (op : Operand) (v : Byte) (s : State) : Result Unit :=
  match op with
  | .none => .ok () (s.setA v)
  | .value _ => .ok () s
  | .address a => memWrite a v s

/-- The byte an operand form yields: resolve, then load. -/
def operandByte (form : Form) (s : State) : Result Byte :=
  (resolve form s).bind fun op s => load op s

/-- An instruction that reads its operand and then only changes registers and flags. -/
def readInstr (form : Form) (effect : Byte → State → State) (s : State) : Result Unit :=
  (operandByte form s).bind fun m s => .ok () (effect m s)

/-- An instruction that stores a byte of the registers; the target is not read (40 R181). -/
def storeInstr (form : Form) (source : State → Byte) (s : State) : Result Unit :=
  (resolve form s).bind fun op s => storeBack op (source s) s

/-- A read-modify-write instruction (43 R253): one read, `early` (the flags written before the store), one write of
`result` at the same place, then `late`. `result` and `early` see the state after the read. -/
def modifyInstr (form : Form) (result : Byte → State → Byte) (early : Byte → State → State)
    (late : Byte → State → State) (s : State) : Result Unit :=
  (resolve form s).bind fun op s =>
  (load op s).bind fun m s =>
  (storeBack op (result m s) (early m s)).bind fun _ t =>
  .ok () (late (result m s) t)

/-- A shift or rotate, and what follows from its result (43 R249 to R252, 46 R329 to R332): C takes the bit shifted
out before the store. -/
def shiftInstr (form : Form) (shift : Byte → Bool → Shifted) (late : Byte → State → State) (s : State) :
    Result Unit :=
  modifyInstr form (fun m s => (shift m (s.flag .C)).result)
    (fun m s => s.setFlag .C (shift m (s.flag .C)).carry) late s

/-- A jump to the address an operand form resolves to. -/
def jumpInstr (form : Form) (s : State) : Result Unit :=
  (resolve form s).bind fun op s =>
    match op with
    | .address a => .ok () (s.setPc a)
    | _ => .ok () s

/-- `Branch(cond)` (44 R270): `PC` takes the target when the condition holds, else stays. -/
def branchInstr (disp : Int) (taken : State → Bool) (s : State) : Result Unit :=
  if taken s then jumpInstr (.relative disp) s else .ok () s

end Sys2Proof.Machine
end

