-- ==== Sys2Proof/Machine/Arithmetic.lean ====
section
/-! DEFINITION. Arithmetic, compares, increments and decrements (spec/42_arithmetic_compare.md). One `op` definition holds the rule of a mnemonic, and each row
of the opcode table has a meaning of its own over it. -/

namespace Sys2Proof.Machine

/-- ADC, add with carry (42 R220). -/
def opAdc (form : Form) (s : State) : Result Unit := readInstr form addWithCarry s

/-- ADC immediate, opcode 0x69. -/
def execAdcImmediate (v : Byte) (s : State) : Host.Outcome State Fault Refusal :=
  (opAdc (.immediate v) s).outcome

/-- ADC zero_page, opcode 0x65. -/
def execAdcZeroPage (d8 : Byte) (s : State) : Host.Outcome State Fault Refusal :=
  (opAdc (.zeroPage d8) s).outcome

/-- ADC zero_page_x, opcode 0x75. -/
def execAdcZeroPageX (d8 : Byte) (s : State) : Host.Outcome State Fault Refusal :=
  (opAdc (.zeroPageX d8) s).outcome

/-- ADC absolute, opcode 0x6D. -/
def execAdcAbsolute (a16 : Word) (s : State) : Host.Outcome State Fault Refusal :=
  (opAdc (.absolute a16) s).outcome

/-- ADC absolute_x, opcode 0x7D. -/
def execAdcAbsoluteX (a16 : Word) (s : State) : Host.Outcome State Fault Refusal :=
  (opAdc (.absoluteX a16) s).outcome

/-- ADC absolute_y, opcode 0x79. -/
def execAdcAbsoluteY (a16 : Word) (s : State) : Host.Outcome State Fault Refusal :=
  (opAdc (.absoluteY a16) s).outcome

/-- ADC pre_indexed_indirect, opcode 0x61. -/
def execAdcPreIndexedIndirect (d8 : Byte) (s : State) : Host.Outcome State Fault Refusal :=
  (opAdc (.preIndexedIndirect d8) s).outcome

/-- ADC post_indexed_indirect, opcode 0x71. -/
def execAdcPostIndexedIndirect (d8 : Byte) (s : State) : Host.Outcome State Fault Refusal :=
  (opAdc (.postIndexedIndirect d8) s).outcome

/-- SBC, subtract with borrow (42 R221). -/
def opSbc (form : Form) (s : State) : Result Unit := readInstr form subtractWithBorrow s

/-- SBC immediate, opcode 0xE9. -/
def execSbcImmediate (v : Byte) (s : State) : Host.Outcome State Fault Refusal :=
  (opSbc (.immediate v) s).outcome

/-- SBC zero_page, opcode 0xE5. -/
def execSbcZeroPage (d8 : Byte) (s : State) : Host.Outcome State Fault Refusal :=
  (opSbc (.zeroPage d8) s).outcome

/-- SBC zero_page_x, opcode 0xF5. -/
def execSbcZeroPageX (d8 : Byte) (s : State) : Host.Outcome State Fault Refusal :=
  (opSbc (.zeroPageX d8) s).outcome

/-- SBC absolute, opcode 0xED. -/
def execSbcAbsolute (a16 : Word) (s : State) : Host.Outcome State Fault Refusal :=
  (opSbc (.absolute a16) s).outcome

/-- SBC absolute_x, opcode 0xFD. -/
def execSbcAbsoluteX (a16 : Word) (s : State) : Host.Outcome State Fault Refusal :=
  (opSbc (.absoluteX a16) s).outcome

/-- SBC absolute_y, opcode 0xF9. -/
def execSbcAbsoluteY (a16 : Word) (s : State) : Host.Outcome State Fault Refusal :=
  (opSbc (.absoluteY a16) s).outcome

/-- SBC pre_indexed_indirect, opcode 0xE1. -/
def execSbcPreIndexedIndirect (d8 : Byte) (s : State) : Host.Outcome State Fault Refusal :=
  (opSbc (.preIndexedIndirect d8) s).outcome

/-- SBC post_indexed_indirect, opcode 0xF1. -/
def execSbcPostIndexedIndirect (d8 : Byte) (s : State) : Host.Outcome State Fault Refusal :=
  (opSbc (.postIndexedIndirect d8) s).outcome

/-- CMP, compare A (42 R222). -/
def opCmp (form : Form) (s : State) : Result Unit := readInstr form (fun m s => compareWith s.cpu.a m s) s

/-- CMP immediate, opcode 0xC9. -/
def execCmpImmediate (v : Byte) (s : State) : Host.Outcome State Fault Refusal :=
  (opCmp (.immediate v) s).outcome

/-- CMP zero_page, opcode 0xC5. -/
def execCmpZeroPage (d8 : Byte) (s : State) : Host.Outcome State Fault Refusal :=
  (opCmp (.zeroPage d8) s).outcome

/-- CMP zero_page_x, opcode 0xD5. -/
def execCmpZeroPageX (d8 : Byte) (s : State) : Host.Outcome State Fault Refusal :=
  (opCmp (.zeroPageX d8) s).outcome

/-- CMP absolute, opcode 0xCD. -/
def execCmpAbsolute (a16 : Word) (s : State) : Host.Outcome State Fault Refusal :=
  (opCmp (.absolute a16) s).outcome

/-- CMP absolute_x, opcode 0xDD. -/
def execCmpAbsoluteX (a16 : Word) (s : State) : Host.Outcome State Fault Refusal :=
  (opCmp (.absoluteX a16) s).outcome

/-- CMP absolute_y, opcode 0xD9. -/
def execCmpAbsoluteY (a16 : Word) (s : State) : Host.Outcome State Fault Refusal :=
  (opCmp (.absoluteY a16) s).outcome

/-- CMP pre_indexed_indirect, opcode 0xC1. -/
def execCmpPreIndexedIndirect (d8 : Byte) (s : State) : Host.Outcome State Fault Refusal :=
  (opCmp (.preIndexedIndirect d8) s).outcome

/-- CMP post_indexed_indirect, opcode 0xD1. -/
def execCmpPostIndexedIndirect (d8 : Byte) (s : State) : Host.Outcome State Fault Refusal :=
  (opCmp (.postIndexedIndirect d8) s).outcome

/-- CPX, compare X (42 R223). -/
def opCpx (form : Form) (s : State) : Result Unit := readInstr form (fun m s => compareWith s.cpu.x m s) s

/-- CPX immediate, opcode 0xE0. -/
def execCpxImmediate (v : Byte) (s : State) : Host.Outcome State Fault Refusal :=
  (opCpx (.immediate v) s).outcome

/-- CPX zero_page, opcode 0xE4. -/
def execCpxZeroPage (d8 : Byte) (s : State) : Host.Outcome State Fault Refusal :=
  (opCpx (.zeroPage d8) s).outcome

/-- CPX absolute, opcode 0xEC. -/
def execCpxAbsolute (a16 : Word) (s : State) : Host.Outcome State Fault Refusal :=
  (opCpx (.absolute a16) s).outcome

/-- CPY, compare Y (42 R224). -/
def opCpy (form : Form) (s : State) : Result Unit := readInstr form (fun m s => compareWith s.cpu.y m s) s

/-- CPY immediate, opcode 0xC0. -/
def execCpyImmediate (v : Byte) (s : State) : Host.Outcome State Fault Refusal :=
  (opCpy (.immediate v) s).outcome

/-- CPY zero_page, opcode 0xC4. -/
def execCpyZeroPage (d8 : Byte) (s : State) : Host.Outcome State Fault Refusal :=
  (opCpy (.zeroPage d8) s).outcome

/-- CPY absolute, opcode 0xCC. -/
def execCpyAbsolute (a16 : Word) (s : State) : Host.Outcome State Fault Refusal :=
  (opCpy (.absolute a16) s).outcome

/-- INC, increment memory (42 R225). -/
def opInc (form : Form) (s : State) : Result Unit :=
  modifyInstr form (fun m _ => m + 1) (fun _ s => s) (fun r s => s.setNZ r) s

/-- INC zero_page, opcode 0xE6. -/
def execIncZeroPage (d8 : Byte) (s : State) : Host.Outcome State Fault Refusal :=
  (opInc (.zeroPage d8) s).outcome

/-- INC zero_page_x, opcode 0xF6. -/
def execIncZeroPageX (d8 : Byte) (s : State) : Host.Outcome State Fault Refusal :=
  (opInc (.zeroPageX d8) s).outcome

/-- INC absolute, opcode 0xEE. -/
def execIncAbsolute (a16 : Word) (s : State) : Host.Outcome State Fault Refusal :=
  (opInc (.absolute a16) s).outcome

/-- INC absolute_x, opcode 0xFE. -/
def execIncAbsoluteX (a16 : Word) (s : State) : Host.Outcome State Fault Refusal :=
  (opInc (.absoluteX a16) s).outcome

/-- DEC, decrement memory (42 R226). -/
def opDec (form : Form) (s : State) : Result Unit :=
  modifyInstr form (fun m _ => m - 1) (fun _ s => s) (fun r s => s.setNZ r) s

/-- DEC zero_page, opcode 0xC6. -/
def execDecZeroPage (d8 : Byte) (s : State) : Host.Outcome State Fault Refusal :=
  (opDec (.zeroPage d8) s).outcome

/-- DEC zero_page_x, opcode 0xD6. -/
def execDecZeroPageX (d8 : Byte) (s : State) : Host.Outcome State Fault Refusal :=
  (opDec (.zeroPageX d8) s).outcome

/-- DEC absolute, opcode 0xCE. -/
def execDecAbsolute (a16 : Word) (s : State) : Host.Outcome State Fault Refusal :=
  (opDec (.absolute a16) s).outcome

/-- DEC absolute_x, opcode 0xDE. -/
def execDecAbsoluteX (a16 : Word) (s : State) : Host.Outcome State Fault Refusal :=
  (opDec (.absoluteX a16) s).outcome

/-- INX, increment X (42 R227). -/
def opInx (s : State) : Result Unit := .ok () ((s.setX (s.cpu.x + 1)).setNZ (s.cpu.x + 1))

/-- INX implied, opcode 0xE8. -/
def execInx (s : State) : Host.Outcome State Fault Refusal :=
  (opInx s).outcome

/-- INY, increment Y (42 R228). -/
def opIny (s : State) : Result Unit := .ok () ((s.setY (s.cpu.y + 1)).setNZ (s.cpu.y + 1))

/-- INY implied, opcode 0xC8. -/
def execIny (s : State) : Host.Outcome State Fault Refusal :=
  (opIny s).outcome

/-- DEX, decrement X (42 R229). -/
def opDex (s : State) : Result Unit := .ok () ((s.setX (s.cpu.x - 1)).setNZ (s.cpu.x - 1))

/-- DEX implied, opcode 0xCA. -/
def execDex (s : State) : Host.Outcome State Fault Refusal :=
  (opDex s).outcome

/-- DEY, decrement Y (42 R230). -/
def opDey (s : State) : Result Unit := .ok () ((s.setY (s.cpu.y - 1)).setNZ (s.cpu.y - 1))

/-- DEY implied, opcode 0x88. -/
def execDey (s : State) : Host.Outcome State Fault Refusal :=
  (opDey s).outcome

end Sys2Proof.Machine
end

