-- ==== Sys2Proof/Machine/ControlFlow.lean ====
section
/-! DEFINITION. Branches, jumps, subroutine call and return (spec/44_control_flow.md). One `op` definition holds the rule of a mnemonic, and each row
of the opcode table has a meaning of its own over it. -/

namespace Sys2Proof.Machine

/-- BCC, branch if C clear (44 R271). -/
def opBcc (disp : Int) (s : State) : Result Unit := branchInstr disp (fun s => !s.flag .C) s

/-- BCC relative, opcode 0x90. -/
def execBcc (disp : Int) (s : State) : Host.Outcome State Fault Refusal :=
  (opBcc disp s).outcome

/-- BCS, branch if C set (44 R272). -/
def opBcs (disp : Int) (s : State) : Result Unit := branchInstr disp (fun s => s.flag .C) s

/-- BCS relative, opcode 0xB0. -/
def execBcs (disp : Int) (s : State) : Host.Outcome State Fault Refusal :=
  (opBcs disp s).outcome

/-- BEQ, branch if Z set (44 R273). -/
def opBeq (disp : Int) (s : State) : Result Unit := branchInstr disp (fun s => s.flag .Z) s

/-- BEQ relative, opcode 0xF0. -/
def execBeq (disp : Int) (s : State) : Host.Outcome State Fault Refusal :=
  (opBeq disp s).outcome

/-- BNE, branch if Z clear (44 R274). -/
def opBne (disp : Int) (s : State) : Result Unit := branchInstr disp (fun s => !s.flag .Z) s

/-- BNE relative, opcode 0xD0. -/
def execBne (disp : Int) (s : State) : Host.Outcome State Fault Refusal :=
  (opBne disp s).outcome

/-- BMI, branch if N set (44 R275). -/
def opBmi (disp : Int) (s : State) : Result Unit := branchInstr disp (fun s => s.flag .N) s

/-- BMI relative, opcode 0x30. -/
def execBmi (disp : Int) (s : State) : Host.Outcome State Fault Refusal :=
  (opBmi disp s).outcome

/-- BPL, branch if N clear (44 R276). -/
def opBpl (disp : Int) (s : State) : Result Unit := branchInstr disp (fun s => !s.flag .N) s

/-- BPL relative, opcode 0x10. -/
def execBpl (disp : Int) (s : State) : Host.Outcome State Fault Refusal :=
  (opBpl disp s).outcome

/-- BVC, branch if V clear (44 R277). -/
def opBvc (disp : Int) (s : State) : Result Unit := branchInstr disp (fun s => !s.flag .V) s

/-- BVC relative, opcode 0x50. -/
def execBvc (disp : Int) (s : State) : Host.Outcome State Fault Refusal :=
  (opBvc disp s).outcome

/-- BVS, branch if V set (44 R278). -/
def opBvs (disp : Int) (s : State) : Result Unit := branchInstr disp (fun s => s.flag .V) s

/-- BVS relative, opcode 0x70. -/
def execBvs (disp : Int) (s : State) : Host.Outcome State Fault Refusal :=
  (opBvs disp s).outcome

/-- JMP, jump (44 R279). -/
def opJmp (form : Form) (s : State) : Result Unit := jumpInstr form s

/-- JMP absolute, opcode 0x4C. -/
def execJmpAbsolute (a16 : Word) (s : State) : Host.Outcome State Fault Refusal :=
  (opJmp (.absolute a16) s).outcome

/-- JMP indirect_absolute, opcode 0x6C. -/
def execJmpIndirectAbsolute (a16 : Word) (s : State) : Host.Outcome State Fault Refusal :=
  (opJmp (.indirectAbsolute a16) s).outcome

/-- JSR, jump to subroutine (44 R280). -/
def opJsr (a16 : Word) (s : State) : Result Unit :=
  (pushWord (s.cpu.pc - 1) s).bind fun _ s => .ok () (s.setPc a16)

/-- JSR absolute, opcode 0x20. -/
def execJsr (a16 : Word) (s : State) : Host.Outcome State Fault Refusal :=
  (opJsr a16 s).outcome

/-- RTS, return from subroutine (44 R281). -/
def opRts (s : State) : Result Unit :=
  (popWord s).bind fun w s => .ok () (s.setPc (w + 1))

/-- RTS implied, opcode 0x60. -/
def execRts (s : State) : Host.Outcome State Fault Refusal :=
  (opRts s).outcome

end Sys2Proof.Machine
end

