-- ==== Sys2Proof/Machine/LoadStore.lean ====
section
/-! DEFINITION. Loads, stores and register transfers (spec/41_load_store_transfer.md). One `op` definition holds the rule of a mnemonic, and each row
of the opcode table has a meaning of its own over it. -/

namespace Sys2Proof.Machine

/-- LDA, load accumulator (41 R191). -/
def opLda (form : Form) (s : State) : Result Unit := readInstr form (fun m s => (s.setA m).setNZ m) s

/-- LDA immediate, opcode 0xA9. -/
def execLdaImmediate (v : Byte) (s : State) : Host.Outcome State Fault Refusal :=
  (opLda (.immediate v) s).outcome

/-- LDA zero_page, opcode 0xA5. -/
def execLdaZeroPage (d8 : Byte) (s : State) : Host.Outcome State Fault Refusal :=
  (opLda (.zeroPage d8) s).outcome

/-- LDA zero_page_x, opcode 0xB5. -/
def execLdaZeroPageX (d8 : Byte) (s : State) : Host.Outcome State Fault Refusal :=
  (opLda (.zeroPageX d8) s).outcome

/-- LDA absolute, opcode 0xAD. -/
def execLdaAbsolute (a16 : Word) (s : State) : Host.Outcome State Fault Refusal :=
  (opLda (.absolute a16) s).outcome

/-- LDA absolute_x, opcode 0xBD. -/
def execLdaAbsoluteX (a16 : Word) (s : State) : Host.Outcome State Fault Refusal :=
  (opLda (.absoluteX a16) s).outcome

/-- LDA absolute_y, opcode 0xB9. -/
def execLdaAbsoluteY (a16 : Word) (s : State) : Host.Outcome State Fault Refusal :=
  (opLda (.absoluteY a16) s).outcome

/-- LDA pre_indexed_indirect, opcode 0xA1. -/
def execLdaPreIndexedIndirect (d8 : Byte) (s : State) : Host.Outcome State Fault Refusal :=
  (opLda (.preIndexedIndirect d8) s).outcome

/-- LDA post_indexed_indirect, opcode 0xB1. -/
def execLdaPostIndexedIndirect (d8 : Byte) (s : State) : Host.Outcome State Fault Refusal :=
  (opLda (.postIndexedIndirect d8) s).outcome

/-- LDX, load X (41 R192). -/
def opLdx (form : Form) (s : State) : Result Unit := readInstr form (fun m s => (s.setX m).setNZ m) s

/-- LDX immediate, opcode 0xA2. -/
def execLdxImmediate (v : Byte) (s : State) : Host.Outcome State Fault Refusal :=
  (opLdx (.immediate v) s).outcome

/-- LDX zero_page, opcode 0xA6. -/
def execLdxZeroPage (d8 : Byte) (s : State) : Host.Outcome State Fault Refusal :=
  (opLdx (.zeroPage d8) s).outcome

/-- LDX zero_page_y, opcode 0xB6. -/
def execLdxZeroPageY (d8 : Byte) (s : State) : Host.Outcome State Fault Refusal :=
  (opLdx (.zeroPageY d8) s).outcome

/-- LDX absolute, opcode 0xAE. -/
def execLdxAbsolute (a16 : Word) (s : State) : Host.Outcome State Fault Refusal :=
  (opLdx (.absolute a16) s).outcome

/-- LDX absolute_y, opcode 0xBE. -/
def execLdxAbsoluteY (a16 : Word) (s : State) : Host.Outcome State Fault Refusal :=
  (opLdx (.absoluteY a16) s).outcome

/-- LDY, load Y (41 R193). -/
def opLdy (form : Form) (s : State) : Result Unit := readInstr form (fun m s => (s.setY m).setNZ m) s

/-- LDY immediate, opcode 0xA0. -/
def execLdyImmediate (v : Byte) (s : State) : Host.Outcome State Fault Refusal :=
  (opLdy (.immediate v) s).outcome

/-- LDY zero_page, opcode 0xA4. -/
def execLdyZeroPage (d8 : Byte) (s : State) : Host.Outcome State Fault Refusal :=
  (opLdy (.zeroPage d8) s).outcome

/-- LDY zero_page_x, opcode 0xB4. -/
def execLdyZeroPageX (d8 : Byte) (s : State) : Host.Outcome State Fault Refusal :=
  (opLdy (.zeroPageX d8) s).outcome

/-- LDY absolute, opcode 0xAC. -/
def execLdyAbsolute (a16 : Word) (s : State) : Host.Outcome State Fault Refusal :=
  (opLdy (.absolute a16) s).outcome

/-- LDY absolute_x, opcode 0xBC. -/
def execLdyAbsoluteX (a16 : Word) (s : State) : Host.Outcome State Fault Refusal :=
  (opLdy (.absoluteX a16) s).outcome

/-- STA, store accumulator (41 R194). -/
def opSta (form : Form) (s : State) : Result Unit := storeInstr form (fun s => s.cpu.a) s

/-- STA zero_page, opcode 0x85. -/
def execStaZeroPage (d8 : Byte) (s : State) : Host.Outcome State Fault Refusal :=
  (opSta (.zeroPage d8) s).outcome

/-- STA zero_page_x, opcode 0x95. -/
def execStaZeroPageX (d8 : Byte) (s : State) : Host.Outcome State Fault Refusal :=
  (opSta (.zeroPageX d8) s).outcome

/-- STA absolute, opcode 0x8D. -/
def execStaAbsolute (a16 : Word) (s : State) : Host.Outcome State Fault Refusal :=
  (opSta (.absolute a16) s).outcome

/-- STA absolute_x, opcode 0x9D. -/
def execStaAbsoluteX (a16 : Word) (s : State) : Host.Outcome State Fault Refusal :=
  (opSta (.absoluteX a16) s).outcome

/-- STA absolute_y, opcode 0x99. -/
def execStaAbsoluteY (a16 : Word) (s : State) : Host.Outcome State Fault Refusal :=
  (opSta (.absoluteY a16) s).outcome

/-- STA pre_indexed_indirect, opcode 0x81. -/
def execStaPreIndexedIndirect (d8 : Byte) (s : State) : Host.Outcome State Fault Refusal :=
  (opSta (.preIndexedIndirect d8) s).outcome

/-- STA post_indexed_indirect, opcode 0x91. -/
def execStaPostIndexedIndirect (d8 : Byte) (s : State) : Host.Outcome State Fault Refusal :=
  (opSta (.postIndexedIndirect d8) s).outcome

/-- STX, store X (41 R195). -/
def opStx (form : Form) (s : State) : Result Unit := storeInstr form (fun s => s.cpu.x) s

/-- STX zero_page, opcode 0x86. -/
def execStxZeroPage (d8 : Byte) (s : State) : Host.Outcome State Fault Refusal :=
  (opStx (.zeroPage d8) s).outcome

/-- STX zero_page_y, opcode 0x96. -/
def execStxZeroPageY (d8 : Byte) (s : State) : Host.Outcome State Fault Refusal :=
  (opStx (.zeroPageY d8) s).outcome

/-- STX absolute, opcode 0x8E. -/
def execStxAbsolute (a16 : Word) (s : State) : Host.Outcome State Fault Refusal :=
  (opStx (.absolute a16) s).outcome

/-- STY, store Y (41 R196). -/
def opSty (form : Form) (s : State) : Result Unit := storeInstr form (fun s => s.cpu.y) s

/-- STY zero_page, opcode 0x84. -/
def execStyZeroPage (d8 : Byte) (s : State) : Host.Outcome State Fault Refusal :=
  (opSty (.zeroPage d8) s).outcome

/-- STY zero_page_x, opcode 0x94. -/
def execStyZeroPageX (d8 : Byte) (s : State) : Host.Outcome State Fault Refusal :=
  (opSty (.zeroPageX d8) s).outcome

/-- STY absolute, opcode 0x8C. -/
def execStyAbsolute (a16 : Word) (s : State) : Host.Outcome State Fault Refusal :=
  (opSty (.absolute a16) s).outcome

/-- TAX, A to X (41 R197). -/
def opTax (s : State) : Result Unit := .ok () ((s.setX s.cpu.a).setNZ s.cpu.a)

/-- TAX implied, opcode 0xAA. -/
def execTax (s : State) : Host.Outcome State Fault Refusal :=
  (opTax s).outcome

/-- TAY, A to Y (41 R198). -/
def opTay (s : State) : Result Unit := .ok () ((s.setY s.cpu.a).setNZ s.cpu.a)

/-- TAY implied, opcode 0xA8. -/
def execTay (s : State) : Host.Outcome State Fault Refusal :=
  (opTay s).outcome

/-- TXA, X to A (41 R199). -/
def opTxa (s : State) : Result Unit := .ok () ((s.setA s.cpu.x).setNZ s.cpu.x)

/-- TXA implied, opcode 0x8A. -/
def execTxa (s : State) : Host.Outcome State Fault Refusal :=
  (opTxa s).outcome

/-- TYA, Y to A (41 R200). -/
def opTya (s : State) : Result Unit := .ok () ((s.setA s.cpu.y).setNZ s.cpu.y)

/-- TYA implied, opcode 0x98. -/
def execTya (s : State) : Host.Outcome State Fault Refusal :=
  (opTya s).outcome

/-- TSX, SP to X (41 R201). -/
def opTsx (s : State) : Result Unit := .ok () ((s.setX (lowByte s.cpu.sp)).setNZ (lowByte s.cpu.sp))

/-- TSX implied, opcode 0xBA. -/
def execTsx (s : State) : Host.Outcome State Fault Refusal :=
  (opTsx s).outcome

/-- TXS, X to SP (41 R202). -/
def opTxs (s : State) : Result Unit := .ok () (s.setSp (0x0100 ||| s.cpu.x.setWidth 16))

/-- TXS implied, opcode 0x9A. -/
def execTxs (s : State) : Host.Outcome State Fault Refusal :=
  (opTxs s).outcome

end Sys2Proof.Machine
end

