-- ==== Sys2Proof/Machine/Logical.lean ====
section
/-! DEFINITION. Logical instructions, bit test, shifts and rotates (spec/43_logical_shift.md). One `op` definition holds the rule of a mnemonic, and each row
of the opcode table has a meaning of its own over it. -/

namespace Sys2Proof.Machine

/-- AND, and (43 R245). -/
def opAnd (form : Form) (s : State) : Result Unit :=
  readInstr form (fun m s => (s.setA (s.cpu.a &&& m)).setNZ (s.cpu.a &&& m)) s

/-- AND immediate, opcode 0x29. -/
def execAndImmediate (v : Byte) (s : State) : Host.Outcome State Fault Refusal :=
  (opAnd (.immediate v) s).outcome

/-- AND zero_page, opcode 0x25. -/
def execAndZeroPage (d8 : Byte) (s : State) : Host.Outcome State Fault Refusal :=
  (opAnd (.zeroPage d8) s).outcome

/-- AND zero_page_x, opcode 0x35. -/
def execAndZeroPageX (d8 : Byte) (s : State) : Host.Outcome State Fault Refusal :=
  (opAnd (.zeroPageX d8) s).outcome

/-- AND absolute, opcode 0x2D. -/
def execAndAbsolute (a16 : Word) (s : State) : Host.Outcome State Fault Refusal :=
  (opAnd (.absolute a16) s).outcome

/-- AND absolute_x, opcode 0x3D. -/
def execAndAbsoluteX (a16 : Word) (s : State) : Host.Outcome State Fault Refusal :=
  (opAnd (.absoluteX a16) s).outcome

/-- AND absolute_y, opcode 0x39. -/
def execAndAbsoluteY (a16 : Word) (s : State) : Host.Outcome State Fault Refusal :=
  (opAnd (.absoluteY a16) s).outcome

/-- AND pre_indexed_indirect, opcode 0x21. -/
def execAndPreIndexedIndirect (d8 : Byte) (s : State) : Host.Outcome State Fault Refusal :=
  (opAnd (.preIndexedIndirect d8) s).outcome

/-- AND post_indexed_indirect, opcode 0x31. -/
def execAndPostIndexedIndirect (d8 : Byte) (s : State) : Host.Outcome State Fault Refusal :=
  (opAnd (.postIndexedIndirect d8) s).outcome

/-- ORA, or (43 R246). -/
def opOra (form : Form) (s : State) : Result Unit :=
  readInstr form (fun m s => (s.setA (s.cpu.a ||| m)).setNZ (s.cpu.a ||| m)) s

/-- ORA immediate, opcode 0x09. -/
def execOraImmediate (v : Byte) (s : State) : Host.Outcome State Fault Refusal :=
  (opOra (.immediate v) s).outcome

/-- ORA zero_page, opcode 0x05. -/
def execOraZeroPage (d8 : Byte) (s : State) : Host.Outcome State Fault Refusal :=
  (opOra (.zeroPage d8) s).outcome

/-- ORA zero_page_x, opcode 0x15. -/
def execOraZeroPageX (d8 : Byte) (s : State) : Host.Outcome State Fault Refusal :=
  (opOra (.zeroPageX d8) s).outcome

/-- ORA absolute, opcode 0x0D. -/
def execOraAbsolute (a16 : Word) (s : State) : Host.Outcome State Fault Refusal :=
  (opOra (.absolute a16) s).outcome

/-- ORA absolute_x, opcode 0x1D. -/
def execOraAbsoluteX (a16 : Word) (s : State) : Host.Outcome State Fault Refusal :=
  (opOra (.absoluteX a16) s).outcome

/-- ORA absolute_y, opcode 0x19. -/
def execOraAbsoluteY (a16 : Word) (s : State) : Host.Outcome State Fault Refusal :=
  (opOra (.absoluteY a16) s).outcome

/-- ORA pre_indexed_indirect, opcode 0x01. -/
def execOraPreIndexedIndirect (d8 : Byte) (s : State) : Host.Outcome State Fault Refusal :=
  (opOra (.preIndexedIndirect d8) s).outcome

/-- ORA post_indexed_indirect, opcode 0x11. -/
def execOraPostIndexedIndirect (d8 : Byte) (s : State) : Host.Outcome State Fault Refusal :=
  (opOra (.postIndexedIndirect d8) s).outcome

/-- EOR, exclusive or (43 R247). -/
def opEor (form : Form) (s : State) : Result Unit :=
  readInstr form (fun m s => (s.setA (s.cpu.a ^^^ m)).setNZ (s.cpu.a ^^^ m)) s

/-- EOR immediate, opcode 0x49. -/
def execEorImmediate (v : Byte) (s : State) : Host.Outcome State Fault Refusal :=
  (opEor (.immediate v) s).outcome

/-- EOR zero_page, opcode 0x45. -/
def execEorZeroPage (d8 : Byte) (s : State) : Host.Outcome State Fault Refusal :=
  (opEor (.zeroPage d8) s).outcome

/-- EOR zero_page_x, opcode 0x55. -/
def execEorZeroPageX (d8 : Byte) (s : State) : Host.Outcome State Fault Refusal :=
  (opEor (.zeroPageX d8) s).outcome

/-- EOR absolute, opcode 0x4D. -/
def execEorAbsolute (a16 : Word) (s : State) : Host.Outcome State Fault Refusal :=
  (opEor (.absolute a16) s).outcome

/-- EOR absolute_x, opcode 0x5D. -/
def execEorAbsoluteX (a16 : Word) (s : State) : Host.Outcome State Fault Refusal :=
  (opEor (.absoluteX a16) s).outcome

/-- EOR absolute_y, opcode 0x59. -/
def execEorAbsoluteY (a16 : Word) (s : State) : Host.Outcome State Fault Refusal :=
  (opEor (.absoluteY a16) s).outcome

/-- EOR pre_indexed_indirect, opcode 0x41. -/
def execEorPreIndexedIndirect (d8 : Byte) (s : State) : Host.Outcome State Fault Refusal :=
  (opEor (.preIndexedIndirect d8) s).outcome

/-- EOR post_indexed_indirect, opcode 0x51. -/
def execEorPostIndexedIndirect (d8 : Byte) (s : State) : Host.Outcome State Fault Refusal :=
  (opEor (.postIndexedIndirect d8) s).outcome

/-- BIT, bit test (43 R248). -/
def opBit (form : Form) (s : State) : Result Unit := readInstr form bitTest s

/-- BIT zero_page, opcode 0x24. -/
def execBitZeroPage (d8 : Byte) (s : State) : Host.Outcome State Fault Refusal :=
  (opBit (.zeroPage d8) s).outcome

/-- BIT absolute, opcode 0x2C. -/
def execBitAbsolute (a16 : Word) (s : State) : Host.Outcome State Fault Refusal :=
  (opBit (.absolute a16) s).outcome

/-- ASL, shift left (43 R249). -/
def opAsl (form : Form) (s : State) : Result Unit := shiftInstr form shiftLeft (fun r s => s.setNZ r) s

/-- ASL accumulator, opcode 0x0A. -/
def execAslAccumulator (s : State) : Host.Outcome State Fault Refusal :=
  (opAsl .accumulator s).outcome

/-- ASL zero_page, opcode 0x06. -/
def execAslZeroPage (d8 : Byte) (s : State) : Host.Outcome State Fault Refusal :=
  (opAsl (.zeroPage d8) s).outcome

/-- ASL zero_page_x, opcode 0x16. -/
def execAslZeroPageX (d8 : Byte) (s : State) : Host.Outcome State Fault Refusal :=
  (opAsl (.zeroPageX d8) s).outcome

/-- ASL absolute, opcode 0x0E. -/
def execAslAbsolute (a16 : Word) (s : State) : Host.Outcome State Fault Refusal :=
  (opAsl (.absolute a16) s).outcome

/-- ASL absolute_x, opcode 0x1E. -/
def execAslAbsoluteX (a16 : Word) (s : State) : Host.Outcome State Fault Refusal :=
  (opAsl (.absoluteX a16) s).outcome

/-- LSR, shift right (43 R250). -/
def opLsr (form : Form) (s : State) : Result Unit := shiftInstr form shiftRight (fun r s => s.setNZ r) s

/-- LSR accumulator, opcode 0x4A. -/
def execLsrAccumulator (s : State) : Host.Outcome State Fault Refusal :=
  (opLsr .accumulator s).outcome

/-- LSR zero_page, opcode 0x46. -/
def execLsrZeroPage (d8 : Byte) (s : State) : Host.Outcome State Fault Refusal :=
  (opLsr (.zeroPage d8) s).outcome

/-- LSR zero_page_x, opcode 0x56. -/
def execLsrZeroPageX (d8 : Byte) (s : State) : Host.Outcome State Fault Refusal :=
  (opLsr (.zeroPageX d8) s).outcome

/-- LSR absolute, opcode 0x4E. -/
def execLsrAbsolute (a16 : Word) (s : State) : Host.Outcome State Fault Refusal :=
  (opLsr (.absolute a16) s).outcome

/-- LSR absolute_x, opcode 0x5E. -/
def execLsrAbsoluteX (a16 : Word) (s : State) : Host.Outcome State Fault Refusal :=
  (opLsr (.absoluteX a16) s).outcome

/-- ROL, rotate left (43 R251). -/
def opRol (form : Form) (s : State) : Result Unit := shiftInstr form rotateLeft (fun r s => s.setNZ r) s

/-- ROL accumulator, opcode 0x2A. -/
def execRolAccumulator (s : State) : Host.Outcome State Fault Refusal :=
  (opRol .accumulator s).outcome

/-- ROL zero_page, opcode 0x26. -/
def execRolZeroPage (d8 : Byte) (s : State) : Host.Outcome State Fault Refusal :=
  (opRol (.zeroPage d8) s).outcome

/-- ROL zero_page_x, opcode 0x36. -/
def execRolZeroPageX (d8 : Byte) (s : State) : Host.Outcome State Fault Refusal :=
  (opRol (.zeroPageX d8) s).outcome

/-- ROL absolute, opcode 0x2E. -/
def execRolAbsolute (a16 : Word) (s : State) : Host.Outcome State Fault Refusal :=
  (opRol (.absolute a16) s).outcome

/-- ROL absolute_x, opcode 0x3E. -/
def execRolAbsoluteX (a16 : Word) (s : State) : Host.Outcome State Fault Refusal :=
  (opRol (.absoluteX a16) s).outcome

/-- ROR, rotate right (43 R252). -/
def opRor (form : Form) (s : State) : Result Unit := shiftInstr form rotateRight (fun r s => s.setNZ r) s

/-- ROR accumulator, opcode 0x6A. -/
def execRorAccumulator (s : State) : Host.Outcome State Fault Refusal :=
  (opRor .accumulator s).outcome

/-- ROR zero_page, opcode 0x66. -/
def execRorZeroPage (d8 : Byte) (s : State) : Host.Outcome State Fault Refusal :=
  (opRor (.zeroPage d8) s).outcome

/-- ROR zero_page_x, opcode 0x76. -/
def execRorZeroPageX (d8 : Byte) (s : State) : Host.Outcome State Fault Refusal :=
  (opRor (.zeroPageX d8) s).outcome

/-- ROR absolute, opcode 0x6E. -/
def execRorAbsolute (a16 : Word) (s : State) : Host.Outcome State Fault Refusal :=
  (opRor (.absolute a16) s).outcome

/-- ROR absolute_x, opcode 0x7E. -/
def execRorAbsoluteX (a16 : Word) (s : State) : Host.Outcome State Fault Refusal :=
  (opRor (.absoluteX a16) s).outcome

end Sys2Proof.Machine
end

