-- ==== Sys2Proof/Machine/StackSystem.lean ====
section
/-! DEFINITION. Stack, flag, no-operation and system instructions (spec/45_stack_flags_system.md). One `op` definition holds the rule of a mnemonic, and each row
of the opcode table has a meaning of its own over it. -/

namespace Sys2Proof.Machine

/-- PHA, push A (45 R295). -/
def opPha (s : State) : Result Unit := push s.cpu.a s

/-- PHA implied, opcode 0x48. -/
def execPha (s : State) : Host.Outcome State Fault Refusal :=
  (opPha s).outcome

/-- PHP, push P (45 R296). -/
def opPhp (s : State) : Result Unit :=
  let t := s.setFlag .B true
  push t.cpu.p t

/-- PHP implied, opcode 0x08. -/
def execPhp (s : State) : Host.Outcome State Fault Refusal :=
  (opPhp s).outcome

/-- PLA, pull A (45 R297). -/
def opPla (s : State) : Result Unit :=
  (pop s).bind fun v s => .ok () ((s.setA v).setNZ v)

/-- PLA implied, opcode 0x68. -/
def execPla (s : State) : Host.Outcome State Fault Refusal :=
  (opPla s).outcome

/-- PLP, pull P (45 R298). -/
def opPlp (s : State) : Result Unit :=
  (pop s).bind fun v s => .ok () (s.setP (v ||| 0x20))

/-- PLP implied, opcode 0x28. -/
def execPlp (s : State) : Host.Outcome State Fault Refusal :=
  (opPlp s).outcome

/-- CLC, clear C (45 R299). -/
def opClc (s : State) : Result Unit := .ok () (s.setFlag .C false)

/-- CLC implied, opcode 0x18. -/
def execClc (s : State) : Host.Outcome State Fault Refusal :=
  (opClc s).outcome

/-- SEC, set C (45 R300). -/
def opSec (s : State) : Result Unit := .ok () (s.setFlag .C true)

/-- SEC implied, opcode 0x38. -/
def execSec (s : State) : Host.Outcome State Fault Refusal :=
  (opSec s).outcome

/-- CLI, clear I (45 R301). -/
def opCli (s : State) : Result Unit := .ok () (s.setFlag .I false)

/-- CLI implied, opcode 0x58. -/
def execCli (s : State) : Host.Outcome State Fault Refusal :=
  (opCli s).outcome

/-- SEI, set I (45 R302). -/
def opSei (s : State) : Result Unit := .ok () (s.setFlag .I true)

/-- SEI implied, opcode 0x78. -/
def execSei (s : State) : Host.Outcome State Fault Refusal :=
  (opSei s).outcome

/-- CLV, clear V (45 R303). -/
def opClv (s : State) : Result Unit := .ok () (s.setFlag .V false)

/-- CLV implied, opcode 0xB8. -/
def execClv (s : State) : Host.Outcome State Fault Refusal :=
  (opClv s).outcome

/-- CLD, clear D (45 R304). -/
def opCld (s : State) : Result Unit := .ok () (s.setFlag .D false)

/-- CLD implied, opcode 0xD8. -/
def execCld (s : State) : Host.Outcome State Fault Refusal :=
  (opCld s).outcome

/-- SED, set D (45 R305). -/
def opSed (s : State) : Result Unit := .ok () (s.setFlag .D true)

/-- SED implied, opcode 0xF8. -/
def execSed (s : State) : Host.Outcome State Fault Refusal :=
  (opSed s).outcome

/-- NOP, no operation (45 R306). -/
def opNop (s : State) : Result Unit := .ok () s

/-- NOP implied, opcode 0xEA. -/
def execNop (s : State) : Host.Outcome State Fault Refusal :=
  (opNop s).outcome

/-- BRK, software break (45 R307). -/
def opBrk (s : State) : Result Unit :=
  let masked := s.flag .I
  (pushFrame ((s.setPc (s.cpu.pc + 1)).setFlag .B true)).bind fun _ s =>
  if masked then .ok () (s.setFlag .I true)
  else (readWord irqVector s).bind fun target s => .ok () ((s.setPc target).setFlag .I true)

/-- BRK implied, opcode 0x00. -/
def execBrk (s : State) : Host.Outcome State Fault Refusal :=
  (opBrk s).outcome

/-- RTI, return from interrupt (45 R308). -/
def opRti (s : State) : Result Unit := returnFromInterrupt s

/-- RTI implied, opcode 0x40. -/
def execRti (s : State) : Host.Outcome State Fault Refusal :=
  (opRti s).outcome

end Sys2Proof.Machine
end

