-- ==== Sys2Proof/Machine/Unofficial.lean ====
section
/-! DEFINITION. The eight unofficial combined instructions (spec/46_unofficial.md). One `op` definition holds the rule of a mnemonic, and each row
of the opcode table has a meaning of its own over it. -/

namespace Sys2Proof.Machine

/-- LAX, load A and X (46 R325). -/
def opLax (form : Form) (s : State) : Result Unit := readInstr form (fun m s => ((s.setA m).setX m).setNZ m) s

/-- LAX zero_page, opcode 0xA7. -/
def execLaxZeroPage (d8 : Byte) (s : State) : Host.Outcome State Fault Refusal :=
  (opLax (.zeroPage d8) s).outcome

/-- LAX zero_page_y, opcode 0xB7. -/
def execLaxZeroPageY (d8 : Byte) (s : State) : Host.Outcome State Fault Refusal :=
  (opLax (.zeroPageY d8) s).outcome

/-- LAX absolute, opcode 0xAF. -/
def execLaxAbsolute (a16 : Word) (s : State) : Host.Outcome State Fault Refusal :=
  (opLax (.absolute a16) s).outcome

/-- LAX absolute_y, opcode 0xBF. -/
def execLaxAbsoluteY (a16 : Word) (s : State) : Host.Outcome State Fault Refusal :=
  (opLax (.absoluteY a16) s).outcome

/-- LAX pre_indexed_indirect, opcode 0xA3. -/
def execLaxPreIndexedIndirect (d8 : Byte) (s : State) : Host.Outcome State Fault Refusal :=
  (opLax (.preIndexedIndirect d8) s).outcome

/-- LAX post_indexed_indirect, opcode 0xB3. -/
def execLaxPostIndexedIndirect (d8 : Byte) (s : State) : Host.Outcome State Fault Refusal :=
  (opLax (.postIndexedIndirect d8) s).outcome

/-- SAX, store A and X (46 R326). -/
def opSax (form : Form) (s : State) : Result Unit := storeInstr form (fun s => s.cpu.a &&& s.cpu.x) s

/-- SAX zero_page, opcode 0x87. -/
def execSaxZeroPage (d8 : Byte) (s : State) : Host.Outcome State Fault Refusal :=
  (opSax (.zeroPage d8) s).outcome

/-- SAX zero_page_y, opcode 0x97. -/
def execSaxZeroPageY (d8 : Byte) (s : State) : Host.Outcome State Fault Refusal :=
  (opSax (.zeroPageY d8) s).outcome

/-- SAX absolute, opcode 0x8F. -/
def execSaxAbsolute (a16 : Word) (s : State) : Host.Outcome State Fault Refusal :=
  (opSax (.absolute a16) s).outcome

/-- SAX pre_indexed_indirect, opcode 0x83. -/
def execSaxPreIndexedIndirect (d8 : Byte) (s : State) : Host.Outcome State Fault Refusal :=
  (opSax (.preIndexedIndirect d8) s).outcome

/-- DCP, decrement and compare (46 R327). -/
def opDcp (form : Form) (s : State) : Result Unit :=
  modifyInstr form (fun m _ => m - 1) (fun _ s => s) (fun r s => compareWith s.cpu.a r s) s

/-- DCP zero_page, opcode 0xC7. -/
def execDcpZeroPage (d8 : Byte) (s : State) : Host.Outcome State Fault Refusal :=
  (opDcp (.zeroPage d8) s).outcome

/-- DCP zero_page_x, opcode 0xD7. -/
def execDcpZeroPageX (d8 : Byte) (s : State) : Host.Outcome State Fault Refusal :=
  (opDcp (.zeroPageX d8) s).outcome

/-- DCP absolute, opcode 0xCF. -/
def execDcpAbsolute (a16 : Word) (s : State) : Host.Outcome State Fault Refusal :=
  (opDcp (.absolute a16) s).outcome

/-- DCP absolute_x, opcode 0xDF. -/
def execDcpAbsoluteX (a16 : Word) (s : State) : Host.Outcome State Fault Refusal :=
  (opDcp (.absoluteX a16) s).outcome

/-- DCP absolute_y, opcode 0xDB. -/
def execDcpAbsoluteY (a16 : Word) (s : State) : Host.Outcome State Fault Refusal :=
  (opDcp (.absoluteY a16) s).outcome

/-- DCP pre_indexed_indirect, opcode 0xC3. -/
def execDcpPreIndexedIndirect (d8 : Byte) (s : State) : Host.Outcome State Fault Refusal :=
  (opDcp (.preIndexedIndirect d8) s).outcome

/-- DCP post_indexed_indirect, opcode 0xD3. -/
def execDcpPostIndexedIndirect (d8 : Byte) (s : State) : Host.Outcome State Fault Refusal :=
  (opDcp (.postIndexedIndirect d8) s).outcome

/-- ISB, increment and subtract (46 R328). -/
def opIsb (form : Form) (s : State) : Result Unit :=
  modifyInstr form (fun m _ => m + 1) (fun _ s => s) subtractWithBorrow s

/-- ISB zero_page, opcode 0xE7. -/
def execIsbZeroPage (d8 : Byte) (s : State) : Host.Outcome State Fault Refusal :=
  (opIsb (.zeroPage d8) s).outcome

/-- ISB zero_page_x, opcode 0xF7. -/
def execIsbZeroPageX (d8 : Byte) (s : State) : Host.Outcome State Fault Refusal :=
  (opIsb (.zeroPageX d8) s).outcome

/-- ISB absolute, opcode 0xEF. -/
def execIsbAbsolute (a16 : Word) (s : State) : Host.Outcome State Fault Refusal :=
  (opIsb (.absolute a16) s).outcome

/-- ISB absolute_x, opcode 0xFF. -/
def execIsbAbsoluteX (a16 : Word) (s : State) : Host.Outcome State Fault Refusal :=
  (opIsb (.absoluteX a16) s).outcome

/-- ISB absolute_y, opcode 0xFB. -/
def execIsbAbsoluteY (a16 : Word) (s : State) : Host.Outcome State Fault Refusal :=
  (opIsb (.absoluteY a16) s).outcome

/-- ISB pre_indexed_indirect, opcode 0xE3. -/
def execIsbPreIndexedIndirect (d8 : Byte) (s : State) : Host.Outcome State Fault Refusal :=
  (opIsb (.preIndexedIndirect d8) s).outcome

/-- ISB post_indexed_indirect, opcode 0xF3. -/
def execIsbPostIndexedIndirect (d8 : Byte) (s : State) : Host.Outcome State Fault Refusal :=
  (opIsb (.postIndexedIndirect d8) s).outcome

/-- SLO, shift left and or (46 R329). -/
def opSlo (form : Form) (s : State) : Result Unit :=
  shiftInstr form shiftLeft (fun r s => (s.setA (s.cpu.a ||| r)).setNZ (s.cpu.a ||| r)) s

/-- SLO zero_page, opcode 0x07. -/
def execSloZeroPage (d8 : Byte) (s : State) : Host.Outcome State Fault Refusal :=
  (opSlo (.zeroPage d8) s).outcome

/-- SLO zero_page_x, opcode 0x17. -/
def execSloZeroPageX (d8 : Byte) (s : State) : Host.Outcome State Fault Refusal :=
  (opSlo (.zeroPageX d8) s).outcome

/-- SLO absolute, opcode 0x0F. -/
def execSloAbsolute (a16 : Word) (s : State) : Host.Outcome State Fault Refusal :=
  (opSlo (.absolute a16) s).outcome

/-- SLO absolute_x, opcode 0x1F. -/
def execSloAbsoluteX (a16 : Word) (s : State) : Host.Outcome State Fault Refusal :=
  (opSlo (.absoluteX a16) s).outcome

/-- SLO absolute_y, opcode 0x1B. -/
def execSloAbsoluteY (a16 : Word) (s : State) : Host.Outcome State Fault Refusal :=
  (opSlo (.absoluteY a16) s).outcome

/-- SLO pre_indexed_indirect, opcode 0x03. -/
def execSloPreIndexedIndirect (d8 : Byte) (s : State) : Host.Outcome State Fault Refusal :=
  (opSlo (.preIndexedIndirect d8) s).outcome

/-- SLO post_indexed_indirect, opcode 0x13. -/
def execSloPostIndexedIndirect (d8 : Byte) (s : State) : Host.Outcome State Fault Refusal :=
  (opSlo (.postIndexedIndirect d8) s).outcome

/-- SRE, shift right and exclusive or (46 R330). -/
def opSre (form : Form) (s : State) : Result Unit :=
  shiftInstr form shiftRight (fun r s => (s.setA (s.cpu.a ^^^ r)).setNZ (s.cpu.a ^^^ r)) s

/-- SRE zero_page, opcode 0x47. -/
def execSreZeroPage (d8 : Byte) (s : State) : Host.Outcome State Fault Refusal :=
  (opSre (.zeroPage d8) s).outcome

/-- SRE zero_page_x, opcode 0x57. -/
def execSreZeroPageX (d8 : Byte) (s : State) : Host.Outcome State Fault Refusal :=
  (opSre (.zeroPageX d8) s).outcome

/-- SRE absolute, opcode 0x4F. -/
def execSreAbsolute (a16 : Word) (s : State) : Host.Outcome State Fault Refusal :=
  (opSre (.absolute a16) s).outcome

/-- SRE absolute_x, opcode 0x5F. -/
def execSreAbsoluteX (a16 : Word) (s : State) : Host.Outcome State Fault Refusal :=
  (opSre (.absoluteX a16) s).outcome

/-- SRE absolute_y, opcode 0x5B. -/
def execSreAbsoluteY (a16 : Word) (s : State) : Host.Outcome State Fault Refusal :=
  (opSre (.absoluteY a16) s).outcome

/-- SRE pre_indexed_indirect, opcode 0x43. -/
def execSrePreIndexedIndirect (d8 : Byte) (s : State) : Host.Outcome State Fault Refusal :=
  (opSre (.preIndexedIndirect d8) s).outcome

/-- SRE post_indexed_indirect, opcode 0x53. -/
def execSrePostIndexedIndirect (d8 : Byte) (s : State) : Host.Outcome State Fault Refusal :=
  (opSre (.postIndexedIndirect d8) s).outcome

/-- RLA, rotate left and and (46 R331). -/
def opRla (form : Form) (s : State) : Result Unit :=
  shiftInstr form rotateLeft (fun r s => (s.setA (s.cpu.a &&& r)).setNZ (s.cpu.a &&& r)) s

/-- RLA zero_page, opcode 0x27. -/
def execRlaZeroPage (d8 : Byte) (s : State) : Host.Outcome State Fault Refusal :=
  (opRla (.zeroPage d8) s).outcome

/-- RLA zero_page_x, opcode 0x37. -/
def execRlaZeroPageX (d8 : Byte) (s : State) : Host.Outcome State Fault Refusal :=
  (opRla (.zeroPageX d8) s).outcome

/-- RLA absolute, opcode 0x2F. -/
def execRlaAbsolute (a16 : Word) (s : State) : Host.Outcome State Fault Refusal :=
  (opRla (.absolute a16) s).outcome

/-- RLA absolute_x, opcode 0x3F. -/
def execRlaAbsoluteX (a16 : Word) (s : State) : Host.Outcome State Fault Refusal :=
  (opRla (.absoluteX a16) s).outcome

/-- RLA absolute_y, opcode 0x3B. -/
def execRlaAbsoluteY (a16 : Word) (s : State) : Host.Outcome State Fault Refusal :=
  (opRla (.absoluteY a16) s).outcome

/-- RLA pre_indexed_indirect, opcode 0x23. -/
def execRlaPreIndexedIndirect (d8 : Byte) (s : State) : Host.Outcome State Fault Refusal :=
  (opRla (.preIndexedIndirect d8) s).outcome

/-- RLA post_indexed_indirect, opcode 0x33. -/
def execRlaPostIndexedIndirect (d8 : Byte) (s : State) : Host.Outcome State Fault Refusal :=
  (opRla (.postIndexedIndirect d8) s).outcome

/-- RRA, rotate right and add (46 R332). -/
def opRra (form : Form) (s : State) : Result Unit := shiftInstr form rotateRight addWithCarry s

/-- RRA zero_page, opcode 0x67. -/
def execRraZeroPage (d8 : Byte) (s : State) : Host.Outcome State Fault Refusal :=
  (opRra (.zeroPage d8) s).outcome

/-- RRA zero_page_x, opcode 0x77. -/
def execRraZeroPageX (d8 : Byte) (s : State) : Host.Outcome State Fault Refusal :=
  (opRra (.zeroPageX d8) s).outcome

/-- RRA absolute, opcode 0x6F. -/
def execRraAbsolute (a16 : Word) (s : State) : Host.Outcome State Fault Refusal :=
  (opRra (.absolute a16) s).outcome

/-- RRA absolute_x, opcode 0x7F. -/
def execRraAbsoluteX (a16 : Word) (s : State) : Host.Outcome State Fault Refusal :=
  (opRra (.absoluteX a16) s).outcome

/-- RRA absolute_y, opcode 0x7B. -/
def execRraAbsoluteY (a16 : Word) (s : State) : Host.Outcome State Fault Refusal :=
  (opRra (.absoluteY a16) s).outcome

/-- RRA pre_indexed_indirect, opcode 0x63. -/
def execRraPreIndexedIndirect (d8 : Byte) (s : State) : Host.Outcome State Fault Refusal :=
  (opRra (.preIndexedIndirect d8) s).outcome

/-- RRA post_indexed_indirect, opcode 0x73. -/
def execRraPostIndexedIndirect (d8 : Byte) (s : State) : Host.Outcome State Fault Refusal :=
  (opRra (.postIndexedIndirect d8) s).outcome

end Sys2Proof.Machine
end

