-- ==== Sys2Proof/Machine/Dispatch.lean ====
section
/-! DEFINITION. The dispatch: one arm for each constructor of Instr, one direct call of its meaning. -/

namespace Sys2Proof.Machine

def exec (i : Instr) (s : State) : Host.Outcome State Fault Refusal :=
  match i with
  -- LDA
  | .ldaImmediate v => Sys2Proof.Machine.execLdaImmediate v s
  | .ldaZeroPage d8 => Sys2Proof.Machine.execLdaZeroPage d8 s
  | .ldaZeroPageX d8 => Sys2Proof.Machine.execLdaZeroPageX d8 s
  | .ldaAbsolute a16 => Sys2Proof.Machine.execLdaAbsolute a16 s
  | .ldaAbsoluteX a16 => Sys2Proof.Machine.execLdaAbsoluteX a16 s
  | .ldaAbsoluteY a16 => Sys2Proof.Machine.execLdaAbsoluteY a16 s
  | .ldaPreIndexedIndirect d8 => Sys2Proof.Machine.execLdaPreIndexedIndirect d8 s
  | .ldaPostIndexedIndirect d8 => Sys2Proof.Machine.execLdaPostIndexedIndirect d8 s
  -- LDX
  | .ldxImmediate v => Sys2Proof.Machine.execLdxImmediate v s
  | .ldxZeroPage d8 => Sys2Proof.Machine.execLdxZeroPage d8 s
  | .ldxZeroPageY d8 => Sys2Proof.Machine.execLdxZeroPageY d8 s
  | .ldxAbsolute a16 => Sys2Proof.Machine.execLdxAbsolute a16 s
  | .ldxAbsoluteY a16 => Sys2Proof.Machine.execLdxAbsoluteY a16 s
  -- LDY
  | .ldyImmediate v => Sys2Proof.Machine.execLdyImmediate v s
  | .ldyZeroPage d8 => Sys2Proof.Machine.execLdyZeroPage d8 s
  | .ldyZeroPageX d8 => Sys2Proof.Machine.execLdyZeroPageX d8 s
  | .ldyAbsolute a16 => Sys2Proof.Machine.execLdyAbsolute a16 s
  | .ldyAbsoluteX a16 => Sys2Proof.Machine.execLdyAbsoluteX a16 s
  -- STA
  | .staZeroPage d8 => Sys2Proof.Machine.execStaZeroPage d8 s
  | .staZeroPageX d8 => Sys2Proof.Machine.execStaZeroPageX d8 s
  | .staAbsolute a16 => Sys2Proof.Machine.execStaAbsolute a16 s
  | .staAbsoluteX a16 => Sys2Proof.Machine.execStaAbsoluteX a16 s
  | .staAbsoluteY a16 => Sys2Proof.Machine.execStaAbsoluteY a16 s
  | .staPreIndexedIndirect d8 => Sys2Proof.Machine.execStaPreIndexedIndirect d8 s
  | .staPostIndexedIndirect d8 => Sys2Proof.Machine.execStaPostIndexedIndirect d8 s
  -- STX
  | .stxZeroPage d8 => Sys2Proof.Machine.execStxZeroPage d8 s
  | .stxZeroPageY d8 => Sys2Proof.Machine.execStxZeroPageY d8 s
  | .stxAbsolute a16 => Sys2Proof.Machine.execStxAbsolute a16 s
  -- STY
  | .styZeroPage d8 => Sys2Proof.Machine.execStyZeroPage d8 s
  | .styZeroPageX d8 => Sys2Proof.Machine.execStyZeroPageX d8 s
  | .styAbsolute a16 => Sys2Proof.Machine.execStyAbsolute a16 s
  -- TAX
  | .tax => Sys2Proof.Machine.execTax s
  -- TAY
  | .tay => Sys2Proof.Machine.execTay s
  -- TXA
  | .txa => Sys2Proof.Machine.execTxa s
  -- TYA
  | .tya => Sys2Proof.Machine.execTya s
  -- TSX
  | .tsx => Sys2Proof.Machine.execTsx s
  -- TXS
  | .txs => Sys2Proof.Machine.execTxs s
  -- ADC
  | .adcImmediate v => Sys2Proof.Machine.execAdcImmediate v s
  | .adcZeroPage d8 => Sys2Proof.Machine.execAdcZeroPage d8 s
  | .adcZeroPageX d8 => Sys2Proof.Machine.execAdcZeroPageX d8 s
  | .adcAbsolute a16 => Sys2Proof.Machine.execAdcAbsolute a16 s
  | .adcAbsoluteX a16 => Sys2Proof.Machine.execAdcAbsoluteX a16 s
  | .adcAbsoluteY a16 => Sys2Proof.Machine.execAdcAbsoluteY a16 s
  | .adcPreIndexedIndirect d8 => Sys2Proof.Machine.execAdcPreIndexedIndirect d8 s
  | .adcPostIndexedIndirect d8 => Sys2Proof.Machine.execAdcPostIndexedIndirect d8 s
  -- SBC
  | .sbcImmediate v => Sys2Proof.Machine.execSbcImmediate v s
  | .sbcZeroPage d8 => Sys2Proof.Machine.execSbcZeroPage d8 s
  | .sbcZeroPageX d8 => Sys2Proof.Machine.execSbcZeroPageX d8 s
  | .sbcAbsolute a16 => Sys2Proof.Machine.execSbcAbsolute a16 s
  | .sbcAbsoluteX a16 => Sys2Proof.Machine.execSbcAbsoluteX a16 s
  | .sbcAbsoluteY a16 => Sys2Proof.Machine.execSbcAbsoluteY a16 s
  | .sbcPreIndexedIndirect d8 => Sys2Proof.Machine.execSbcPreIndexedIndirect d8 s
  | .sbcPostIndexedIndirect d8 => Sys2Proof.Machine.execSbcPostIndexedIndirect d8 s
  -- CMP
  | .cmpImmediate v => Sys2Proof.Machine.execCmpImmediate v s
  | .cmpZeroPage d8 => Sys2Proof.Machine.execCmpZeroPage d8 s
  | .cmpZeroPageX d8 => Sys2Proof.Machine.execCmpZeroPageX d8 s
  | .cmpAbsolute a16 => Sys2Proof.Machine.execCmpAbsolute a16 s
  | .cmpAbsoluteX a16 => Sys2Proof.Machine.execCmpAbsoluteX a16 s
  | .cmpAbsoluteY a16 => Sys2Proof.Machine.execCmpAbsoluteY a16 s
  | .cmpPreIndexedIndirect d8 => Sys2Proof.Machine.execCmpPreIndexedIndirect d8 s
  | .cmpPostIndexedIndirect d8 => Sys2Proof.Machine.execCmpPostIndexedIndirect d8 s
  -- CPX
  | .cpxImmediate v => Sys2Proof.Machine.execCpxImmediate v s
  | .cpxZeroPage d8 => Sys2Proof.Machine.execCpxZeroPage d8 s
  | .cpxAbsolute a16 => Sys2Proof.Machine.execCpxAbsolute a16 s
  -- CPY
  | .cpyImmediate v => Sys2Proof.Machine.execCpyImmediate v s
  | .cpyZeroPage d8 => Sys2Proof.Machine.execCpyZeroPage d8 s
  | .cpyAbsolute a16 => Sys2Proof.Machine.execCpyAbsolute a16 s
  -- INC
  | .incZeroPage d8 => Sys2Proof.Machine.execIncZeroPage d8 s
  | .incZeroPageX d8 => Sys2Proof.Machine.execIncZeroPageX d8 s
  | .incAbsolute a16 => Sys2Proof.Machine.execIncAbsolute a16 s
  | .incAbsoluteX a16 => Sys2Proof.Machine.execIncAbsoluteX a16 s
  -- DEC
  | .decZeroPage d8 => Sys2Proof.Machine.execDecZeroPage d8 s
  | .decZeroPageX d8 => Sys2Proof.Machine.execDecZeroPageX d8 s
  | .decAbsolute a16 => Sys2Proof.Machine.execDecAbsolute a16 s
  | .decAbsoluteX a16 => Sys2Proof.Machine.execDecAbsoluteX a16 s
  -- INX
  | .inx => Sys2Proof.Machine.execInx s
  -- INY
  | .iny => Sys2Proof.Machine.execIny s
  -- DEX
  | .dex => Sys2Proof.Machine.execDex s
  -- DEY
  | .dey => Sys2Proof.Machine.execDey s
  -- AND
  | .andImmediate v => Sys2Proof.Machine.execAndImmediate v s
  | .andZeroPage d8 => Sys2Proof.Machine.execAndZeroPage d8 s
  | .andZeroPageX d8 => Sys2Proof.Machine.execAndZeroPageX d8 s
  | .andAbsolute a16 => Sys2Proof.Machine.execAndAbsolute a16 s
  | .andAbsoluteX a16 => Sys2Proof.Machine.execAndAbsoluteX a16 s
  | .andAbsoluteY a16 => Sys2Proof.Machine.execAndAbsoluteY a16 s
  | .andPreIndexedIndirect d8 => Sys2Proof.Machine.execAndPreIndexedIndirect d8 s
  | .andPostIndexedIndirect d8 => Sys2Proof.Machine.execAndPostIndexedIndirect d8 s
  -- ORA
  | .oraImmediate v => Sys2Proof.Machine.execOraImmediate v s
  | .oraZeroPage d8 => Sys2Proof.Machine.execOraZeroPage d8 s
  | .oraZeroPageX d8 => Sys2Proof.Machine.execOraZeroPageX d8 s
  | .oraAbsolute a16 => Sys2Proof.Machine.execOraAbsolute a16 s
  | .oraAbsoluteX a16 => Sys2Proof.Machine.execOraAbsoluteX a16 s
  | .oraAbsoluteY a16 => Sys2Proof.Machine.execOraAbsoluteY a16 s
  | .oraPreIndexedIndirect d8 => Sys2Proof.Machine.execOraPreIndexedIndirect d8 s
  | .oraPostIndexedIndirect d8 => Sys2Proof.Machine.execOraPostIndexedIndirect d8 s
  -- EOR
  | .eorImmediate v => Sys2Proof.Machine.execEorImmediate v s
  | .eorZeroPage d8 => Sys2Proof.Machine.execEorZeroPage d8 s
  | .eorZeroPageX d8 => Sys2Proof.Machine.execEorZeroPageX d8 s
  | .eorAbsolute a16 => Sys2Proof.Machine.execEorAbsolute a16 s
  | .eorAbsoluteX a16 => Sys2Proof.Machine.execEorAbsoluteX a16 s
  | .eorAbsoluteY a16 => Sys2Proof.Machine.execEorAbsoluteY a16 s
  | .eorPreIndexedIndirect d8 => Sys2Proof.Machine.execEorPreIndexedIndirect d8 s
  | .eorPostIndexedIndirect d8 => Sys2Proof.Machine.execEorPostIndexedIndirect d8 s
  -- BIT
  | .bitZeroPage d8 => Sys2Proof.Machine.execBitZeroPage d8 s
  | .bitAbsolute a16 => Sys2Proof.Machine.execBitAbsolute a16 s
  -- ASL
  | .aslAccumulator => Sys2Proof.Machine.execAslAccumulator s
  | .aslZeroPage d8 => Sys2Proof.Machine.execAslZeroPage d8 s
  | .aslZeroPageX d8 => Sys2Proof.Machine.execAslZeroPageX d8 s
  | .aslAbsolute a16 => Sys2Proof.Machine.execAslAbsolute a16 s
  | .aslAbsoluteX a16 => Sys2Proof.Machine.execAslAbsoluteX a16 s
  -- LSR
  | .lsrAccumulator => Sys2Proof.Machine.execLsrAccumulator s
  | .lsrZeroPage d8 => Sys2Proof.Machine.execLsrZeroPage d8 s
  | .lsrZeroPageX d8 => Sys2Proof.Machine.execLsrZeroPageX d8 s
  | .lsrAbsolute a16 => Sys2Proof.Machine.execLsrAbsolute a16 s
  | .lsrAbsoluteX a16 => Sys2Proof.Machine.execLsrAbsoluteX a16 s
  -- ROL
  | .rolAccumulator => Sys2Proof.Machine.execRolAccumulator s
  | .rolZeroPage d8 => Sys2Proof.Machine.execRolZeroPage d8 s
  | .rolZeroPageX d8 => Sys2Proof.Machine.execRolZeroPageX d8 s
  | .rolAbsolute a16 => Sys2Proof.Machine.execRolAbsolute a16 s
  | .rolAbsoluteX a16 => Sys2Proof.Machine.execRolAbsoluteX a16 s
  -- ROR
  | .rorAccumulator => Sys2Proof.Machine.execRorAccumulator s
  | .rorZeroPage d8 => Sys2Proof.Machine.execRorZeroPage d8 s
  | .rorZeroPageX d8 => Sys2Proof.Machine.execRorZeroPageX d8 s
  | .rorAbsolute a16 => Sys2Proof.Machine.execRorAbsolute a16 s
  | .rorAbsoluteX a16 => Sys2Proof.Machine.execRorAbsoluteX a16 s
  -- BCC
  | .bcc disp => Sys2Proof.Machine.execBcc disp s
  -- BCS
  | .bcs disp => Sys2Proof.Machine.execBcs disp s
  -- BEQ
  | .beq disp => Sys2Proof.Machine.execBeq disp s
  -- BNE
  | .bne disp => Sys2Proof.Machine.execBne disp s
  -- BMI
  | .bmi disp => Sys2Proof.Machine.execBmi disp s
  -- BPL
  | .bpl disp => Sys2Proof.Machine.execBpl disp s
  -- BVC
  | .bvc disp => Sys2Proof.Machine.execBvc disp s
  -- BVS
  | .bvs disp => Sys2Proof.Machine.execBvs disp s
  -- JMP
  | .jmpAbsolute a16 => Sys2Proof.Machine.execJmpAbsolute a16 s
  | .jmpIndirectAbsolute a16 => Sys2Proof.Machine.execJmpIndirectAbsolute a16 s
  -- JSR
  | .jsr a16 => Sys2Proof.Machine.execJsr a16 s
  -- RTS
  | .rts => Sys2Proof.Machine.execRts s
  -- PHA
  | .pha => Sys2Proof.Machine.execPha s
  -- PHP
  | .php => Sys2Proof.Machine.execPhp s
  -- PLA
  | .pla => Sys2Proof.Machine.execPla s
  -- PLP
  | .plp => Sys2Proof.Machine.execPlp s
  -- CLC
  | .clc => Sys2Proof.Machine.execClc s
  -- SEC
  | .sec => Sys2Proof.Machine.execSec s
  -- CLI
  | .cli => Sys2Proof.Machine.execCli s
  -- SEI
  | .sei => Sys2Proof.Machine.execSei s
  -- CLV
  | .clv => Sys2Proof.Machine.execClv s
  -- CLD
  | .cld => Sys2Proof.Machine.execCld s
  -- SED
  | .sed => Sys2Proof.Machine.execSed s
  -- NOP
  | .nop => Sys2Proof.Machine.execNop s
  -- BRK
  | .brk => Sys2Proof.Machine.execBrk s
  -- RTI
  | .rti => Sys2Proof.Machine.execRti s
  -- LAX
  | .laxZeroPage d8 => Sys2Proof.Machine.execLaxZeroPage d8 s
  | .laxZeroPageY d8 => Sys2Proof.Machine.execLaxZeroPageY d8 s
  | .laxAbsolute a16 => Sys2Proof.Machine.execLaxAbsolute a16 s
  | .laxAbsoluteY a16 => Sys2Proof.Machine.execLaxAbsoluteY a16 s
  | .laxPreIndexedIndirect d8 => Sys2Proof.Machine.execLaxPreIndexedIndirect d8 s
  | .laxPostIndexedIndirect d8 => Sys2Proof.Machine.execLaxPostIndexedIndirect d8 s
  -- SAX
  | .saxZeroPage d8 => Sys2Proof.Machine.execSaxZeroPage d8 s
  | .saxZeroPageY d8 => Sys2Proof.Machine.execSaxZeroPageY d8 s
  | .saxAbsolute a16 => Sys2Proof.Machine.execSaxAbsolute a16 s
  | .saxPreIndexedIndirect d8 => Sys2Proof.Machine.execSaxPreIndexedIndirect d8 s
  -- DCP
  | .dcpZeroPage d8 => Sys2Proof.Machine.execDcpZeroPage d8 s
  | .dcpZeroPageX d8 => Sys2Proof.Machine.execDcpZeroPageX d8 s
  | .dcpAbsolute a16 => Sys2Proof.Machine.execDcpAbsolute a16 s
  | .dcpAbsoluteX a16 => Sys2Proof.Machine.execDcpAbsoluteX a16 s
  | .dcpAbsoluteY a16 => Sys2Proof.Machine.execDcpAbsoluteY a16 s
  | .dcpPreIndexedIndirect d8 => Sys2Proof.Machine.execDcpPreIndexedIndirect d8 s
  | .dcpPostIndexedIndirect d8 => Sys2Proof.Machine.execDcpPostIndexedIndirect d8 s
  -- ISB
  | .isbZeroPage d8 => Sys2Proof.Machine.execIsbZeroPage d8 s
  | .isbZeroPageX d8 => Sys2Proof.Machine.execIsbZeroPageX d8 s
  | .isbAbsolute a16 => Sys2Proof.Machine.execIsbAbsolute a16 s
  | .isbAbsoluteX a16 => Sys2Proof.Machine.execIsbAbsoluteX a16 s
  | .isbAbsoluteY a16 => Sys2Proof.Machine.execIsbAbsoluteY a16 s
  | .isbPreIndexedIndirect d8 => Sys2Proof.Machine.execIsbPreIndexedIndirect d8 s
  | .isbPostIndexedIndirect d8 => Sys2Proof.Machine.execIsbPostIndexedIndirect d8 s
  -- SLO
  | .sloZeroPage d8 => Sys2Proof.Machine.execSloZeroPage d8 s
  | .sloZeroPageX d8 => Sys2Proof.Machine.execSloZeroPageX d8 s
  | .sloAbsolute a16 => Sys2Proof.Machine.execSloAbsolute a16 s
  | .sloAbsoluteX a16 => Sys2Proof.Machine.execSloAbsoluteX a16 s
  | .sloAbsoluteY a16 => Sys2Proof.Machine.execSloAbsoluteY a16 s
  | .sloPreIndexedIndirect d8 => Sys2Proof.Machine.execSloPreIndexedIndirect d8 s
  | .sloPostIndexedIndirect d8 => Sys2Proof.Machine.execSloPostIndexedIndirect d8 s
  -- SRE
  | .sreZeroPage d8 => Sys2Proof.Machine.execSreZeroPage d8 s
  | .sreZeroPageX d8 => Sys2Proof.Machine.execSreZeroPageX d8 s
  | .sreAbsolute a16 => Sys2Proof.Machine.execSreAbsolute a16 s
  | .sreAbsoluteX a16 => Sys2Proof.Machine.execSreAbsoluteX a16 s
  | .sreAbsoluteY a16 => Sys2Proof.Machine.execSreAbsoluteY a16 s
  | .srePreIndexedIndirect d8 => Sys2Proof.Machine.execSrePreIndexedIndirect d8 s
  | .srePostIndexedIndirect d8 => Sys2Proof.Machine.execSrePostIndexedIndirect d8 s
  -- RLA
  | .rlaZeroPage d8 => Sys2Proof.Machine.execRlaZeroPage d8 s
  | .rlaZeroPageX d8 => Sys2Proof.Machine.execRlaZeroPageX d8 s
  | .rlaAbsolute a16 => Sys2Proof.Machine.execRlaAbsolute a16 s
  | .rlaAbsoluteX a16 => Sys2Proof.Machine.execRlaAbsoluteX a16 s
  | .rlaAbsoluteY a16 => Sys2Proof.Machine.execRlaAbsoluteY a16 s
  | .rlaPreIndexedIndirect d8 => Sys2Proof.Machine.execRlaPreIndexedIndirect d8 s
  | .rlaPostIndexedIndirect d8 => Sys2Proof.Machine.execRlaPostIndexedIndirect d8 s
  -- RRA
  | .rraZeroPage d8 => Sys2Proof.Machine.execRraZeroPage d8 s
  | .rraZeroPageX d8 => Sys2Proof.Machine.execRraZeroPageX d8 s
  | .rraAbsolute a16 => Sys2Proof.Machine.execRraAbsolute a16 s
  | .rraAbsoluteX a16 => Sys2Proof.Machine.execRraAbsoluteX a16 s
  | .rraAbsoluteY a16 => Sys2Proof.Machine.execRraAbsoluteY a16 s
  | .rraPreIndexedIndirect d8 => Sys2Proof.Machine.execRraPreIndexedIndirect d8 s
  | .rraPostIndexedIndirect d8 => Sys2Proof.Machine.execRraPostIndexedIndirect d8 s

end Sys2Proof.Machine
end

