-- ==== Sys2Proof/Machine/PpuStep.lean ====
section
/-! DEFINITION. The PPU's own step: counters, vertical blank, frame end, sprite-0 hit, background and sprite drawing
(50 R350 to R365). -/

namespace Sys2Proof.Machine

/-- Run `f` for each number of a list in order; the first fault ends it. -/
def forEach (f : Nat → State → Result Unit) : List Nat → State → Result Unit
  | [], s => .ok () s
  | k :: ks, s => (f k s).bind fun _ s => forEach f ks s

/-- Write a pixel of the image. -/
def setPixel (y x : Nat) (c : BitVec 6) (s : State) : State :=
  { s with ppu := { s.ppu with image := gridSet .black s.ppu.image y x (.colour c) } }

/-- Write an opacity bit. -/
def setOpaque (y x : Nat) (b : Bool) (s : State) : State :=
  { s with ppu := { s.ppu with bgOpaque := gridSet false s.ppu.bgOpaque y x b } }

/-- `Colour(index)` as the 6-bit colour number, the argument of `MasterPalette` (50 R361; log entry 5). -/
def colour (index : Nat) (s : State) : Result (BitVec 6) :=
  (ppuBusRead (BitVec.ofNat 16 (0x3F00 + index)) s).bind fun c s => .ok (c.setWidth 6) s

/-- The two bit-plane bytes of a tile row. -/
structure PlaneRow where
  plane0 : Byte
  plane1 : Byte
deriving DecidableEq, Repr

/-- `PatternRow(bank, tile, row)` (50 R359). -/
def patternRow (bank : Bool) (tile : Byte) (row : Nat) (s : State) : Result PlaneRow :=
  let base := 0x1000 * bank.toNat + 16 * tile.toNat + row
  (ppuBusRead (BitVec.ofNat 16 base) s).bind fun lo s =>
  (ppuBusRead (BitVec.ofNat 16 (base + 8)) s).bind fun hi s =>
  .ok ⟨lo, hi⟩ s

/-- The 2-bit value of pixel `i` of a row, `i` = 0 leftmost (50 R360). -/
def pixelValue (r : PlaneRow) (i : Nat) : Nat :=
  2 * (r.plane1.getLsbD (7 - i)).toNat + (r.plane0.getLsbD (7 - i)).toNat

/-- Where in the four name tables a background group lies (50 R356). -/
structure BgPlace where
  table : Nat
  tx : Nat
  ty : Nat
  fy : Nat
deriving DecidableEq, Repr

/-- `BgCoordinates(x, y)` (50 R356, decision D25). -/
def bgCoordinates (p : Ppu) (x y : Nat) : BgPlace :=
  let ex := x + p.scrollX.toNat + 256 * (p.control.getLsbD 0).toNat
  let ey := y + p.scrollY.toNat + 240 * (p.control.getLsbD 1).toNat
  { table := (ex / 256) % 2 + 2 * ((ey / 240) % 2)
    tx := (ex % 256) / 8
    ty := (ey % 240) / 8
    fy := ey % 8 }

/-- The PPU address of a name-table entry (50 R357). -/
def nameAddress (b : BgPlace) : Nat := 0x2000 + 0x400 * b.table + 32 * b.ty + b.tx

/-- The PPU address of an attribute byte (50 R358). -/
def attributeAddress (b : BgPlace) : Nat := 0x2000 + 0x400 * b.table + 0x3C0 + 8 * (b.ty / 4) + b.tx / 4

/-- `AttributeSelector(table, tx, ty)` (50 R358). -/
def attributeSelector (b : BgPlace) (s : State) : Result Nat :=
  (ppuBusRead (BitVec.ofNat 16 (attributeAddress b)) s).bind fun attr s =>
    .ok ((attr.toNat >>> (4 * (b.ty % 4 / 2) + 2 * (b.tx % 4 / 2))) % 4) s

/-- `DrawBackdropGroup(x, y)`, with background rendering disabled (50 R362, decision D26). -/
def drawBackdropGroup (x y : Nat) (s : State) : Result Unit :=
  forEach (fun i s => (colour 0 s).bind fun c s =>
    .ok () (setOpaque y (x + i) false (setPixel y (x + i) c s))) (List.range 8) s

/-- `DrawBackgroundGroup(x, y)` (50 R355): the 8 pixels (x..x+7, y). -/
def drawBackgroundGroup (x y : Nat) (s : State) : Result Unit :=
  if s.ppu.mask.getLsbD 3 then
    let place := bgCoordinates s.ppu x y
    (ppuBusRead (BitVec.ofNat 16 (nameAddress place)) s).bind fun tile s =>
    (attributeSelector place s).bind fun sel s =>
    (patternRow (s.ppu.control.getLsbD 4) tile place.fy s).bind fun row s =>
    forEach (fun i s => (colour (4 * sel + pixelValue row i) s).bind fun c s =>
      .ok () (setOpaque y (x + i) (pixelValue row i != 0) (setPixel y (x + i) c s))) (List.range 8) s
  else drawBackdropGroup x y s

/-- The four bytes of a sprite record (10 R54). -/
structure SpriteRecord where
  y : Nat
  tile : Byte
  attr : Byte
  x : Nat
deriving DecidableEq, Repr

/-- Record `n` of sprite RAM (10 R54). -/
def spriteRecord (m : Memory) (n : Nat) : SpriteRecord where
  y := (byteAt m (4 * n)).toNat
  tile := byteAt m (4 * n + 1)
  attr := byteAt m (4 * n + 2)
  x := (byteAt m (4 * n + 3)).toNat

/-- One pixel of a sprite row: dropped off screen, transparent at value 0, hidden behind an opaque background pixel
when attribute bit 5 is set (50 R364, R365). -/
def drawSpritePixel (rec : SpriteRecord) (row : PlaneRow) (py c : Nat) (s : State) : Result Unit :=
  let px := rec.x + c
  if px ≥ 256 then .ok () s
  else
    let pix := pixelValue row (if rec.attr.getLsbD 6 then 7 - c else c)
    if pix = 0 then .ok () s
    else if rec.attr.getLsbD 5 && gridGet false s.ppu.bgOpaque py px then .ok () s
    else
      (colour (0x10 + 4 * (rec.attr.toNat % 4) + pix) s).bind fun k s => .ok () (setPixel py px k s)

/-- One row of a sprite (50 R364). -/
def drawSpriteRow (rec : SpriteRecord) (r : Nat) (s : State) : Result Unit :=
  let py := rec.y + r
  if py ≥ 240 then .ok () s
  else
    (patternRow (s.ppu.control.getLsbD 3) rec.tile (if rec.attr.getLsbD 7 then 7 - r else r) s).bind
      fun row s => forEach (drawSpritePixel rec row py) (List.range 8) s

/-- `DrawSprite(s)` (50 R364). -/
def drawSprite (n : Nat) (s : State) : Result Unit :=
  forEach (drawSpriteRow (spriteRecord s.ppu.spriteRam n)) (List.range 8) s

/-- `DrawSprites()` (50 R363): 63 down to 0, so that sprite 0 ends on top. -/
def drawSprites (s : State) : Result Unit :=
  if s.ppu.mask.getLsbD 4 then forEach drawSprite (List.range 64).reverse s else .ok () s

/-- `SpriteZeroTest()` (50 R354): no pixel overlap is tested. -/
def spriteZeroTest (s : State) : State :=
  if (byteAt s.ppu.spriteRam 0).toNat = s.ppu.line ∧ s.ppu.mask.getLsbD 3 ∧ s.ppu.mask.getLsbD 4 then
    { s with ppu := { s.ppu with status := s.ppu.status ||| 0x40 } }
  else s

/-- `VblankStart()` (50 R352): the enable bit is sampled here only. -/
def vblankStart (s : State) : State :=
  { s with
    ppu := { s.ppu with status := s.ppu.status ||| 0x80 }
    int := { s.int with nmi := s.int.nmi || s.ppu.control.getLsbD 7 } }

/-- The event `Render(Image)` (50 R353; log entry 10). -/
def emitRender (s : State) : State :=
  { s with render := { count := s.render.count + 1, frame := s.ppu.image } }

/-- `FrameEnd()` (50 R353): sprites, the frame to the renderer, line 0, vblank and sprite-0 hit cleared, NMI
deasserted. -/
def frameEnd (s : State) : Result Unit :=
  (drawSprites s).bind fun _ s =>
    let t := emitRender s
    .ok () { t with
      ppu := { t.ppu with line := 0, status := t.ppu.status &&& 0x3F }
      int := { t.int with nmi := false } }

/-- `Advance()` (50 R351). -/
def advance (s : State) : Result Unit :=
  if s.ppu.cycle < 340 then .ok () { s with ppu := { s.ppu with cycle := s.ppu.cycle + 1 } }
  else if s.ppu.line < 261 then
    let t := { s with ppu := { s.ppu with cycle := 0, line := s.ppu.line + 1 } }
    .ok () (if t.ppu.line = 240 then vblankStart t else t)
  else frameEnd { s with ppu := { s.ppu with cycle := 0 } }

/-- The background part of a PPU step (50 R350). -/
def backgroundPart (s : State) : Result Unit :=
  if s.ppu.line < 240 ∧ s.ppu.cycle < 256 ∧ s.ppu.cycle % 8 = 0 then
    drawBackgroundGroup s.ppu.cycle s.ppu.line s
  else .ok () s

/-- `PPU.step()` (50 R350): background group, sprite-0 test, counter advance. -/
def ppuStep (s : State) : Result Unit :=
  (backgroundPart s).bind fun _ s => advance (spriteZeroTest s)

/-- `n` PPU steps (51 R441). -/
def ppuSteps : Nat → State → Result Unit
  | 0, s => .ok () s
  | n + 1, s => (ppuStep s).bind fun _ s => ppuSteps n s

end Sys2Proof.Machine
end

