-- ==== Sys2Proof/Machine/Master.lean ====
section
/-! DEFINITION. The parts of the master step around the instruction (51 R440): what runs before the fetch, fetching and
decoding, the cycle count, and where bytes must stand to be fetched next. -/

namespace Sys2Proof.Machine

/-- The host actions before this master step are taken off the schedule and performed (51 R443; log entry 8). -/
def hostPart (s : State) : Result Unit :=
  match s.schedule with
  | [] => .ok () s
  | hs :: rest => hostActions hs { s with schedule := rest }

/-- What a master step does before it fetches: host actions, DMA drain, interrupt poll and service (51 R440, 40 R183). -/
def beforeFetch (s : State) : Result Unit :=
  (hostPart s).bind fun _ s =>
  (transferIfRequested s).bind fun _ s =>
  handleInterrupts s

/-- Fetch the operand bytes an opcode asks for (30 R140, 40 R165, R166). -/
def fetchOperands (t : Template) (s : State) : Result Instr :=
  match t with
  | .none i => .ok i s
  | .byte build => (fetch s).bind fun d8 s => .ok (build d8) s
  | .word build => (fetchWord s).bind fun a16 s => .ok (build a16) s

/-- Fetch and decode one instruction (40 R183): an opcode byte with no entry faults after its fetch, before any operand
fetch (60 R471). -/
def fetchInstr (s : State) : Result Instr :=
  (fetch s).bind fun opcode s =>
    match opcodeEntry opcode with
    | some t => fetchOperands t s
    | none => .fault (.invalidOpcode opcode)

/-- Everything of a master step up to the decoded instruction. -/
def prepare (s : State) : Result Instr := (beforeFetch s).bind fun _ s => fetchInstr s

/-- The base cycle count an instruction reports (30 R147): the entry of `CycleTable`, else the default of the table
(log entry 4). -/
def cyclesOf (c : Config) (i : Instr) : Nat :=
  match lookupOverride i.row.opcode.toNat c.cycleTable with
  | some n => n
  | none => i.row.cycles

/-- The PPU's part of a master step, after the instruction `i` (51 R441): three PPU steps for each cycle. -/
def ppuPart (i : Instr) (s : State) : Result Unit := ppuSteps (3 * cyclesOf s.config i) s

/-- Store one byte where a CPU fetch at address `a` reads it: working RAM or program ROM. -/
def placeByte (a : Word) (v : Byte) (s : State) : State :=
  if a.toNat < 0x2000 then { s with wram := setByte s.wram (wramOffset a.toNat) v }
  else
    match s.config.prgRom with
    | some rom =>
      { s with config := { s.config with
          prgRom := some { rom with bytes := setByte rom.bytes (prgOffset rom.size a.toNat) v } } }
    | none => s

/-- Store bytes at consecutive addresses. -/
def placeBytes : List Byte → Word → State → State
  | [], _, s => s
  | v :: vs, a, s => placeBytes vs (a + 1) (placeByte a v s)

/-- Does a fetch at `a` read a stored byte (working RAM, or attached program ROM)? -/
def fetchesStorage (c : Config) (a : Word) : Bool :=
  decide (a.toNat < 0x2000) || (decide (a.toNat ≥ 0x8000) && c.prgRom.isSome)

/-- The address from which bytes can be fetched next: `PC` where three bytes there are storage, else 0x0000 (log
entry 21). -/
def fetchPlace (s : State) : Word :=
  let pc := s.cpu.pc
  if fetchesStorage s.config pc && fetchesStorage s.config (pc + 1) && fetchesStorage s.config (pc + 2) then pc
  else 0x0000

/-- Nothing stands before the fetch at `PC`: no fault, no host action, no request that would be served first (log
entry 21). -/
def quiesce (s : State) : State :=
  { s with
    fault := none
    schedule := []
    int := { nmi := false, irq := s.int.irq && s.flag .I }
    dma := { s.dma with pending := s.dma.pending && decide (s.dma.page.toNat < 8) } }

end Sys2Proof.Machine
end

