-- ==== Sys2Proof/Machine/Step.lean ====
section
/-! DEFINITION. The master step (51 R440) and where an instruction must stand to be the next one it runs. -/

namespace Sys2Proof.Machine

/-- `Machine.step()` (51 R440): host actions, DMA drain, interrupts, one instruction, three PPU steps for each cycle. A
machine whose fault is set has no further step (10 R68, 60 R470). -/
def step (s : State) : Host.Outcome State Fault Refusal :=
  match s.fault with
  | some f => .fault f
  | none =>
    match prepare s with
    | .fault f => .fault f
    | .ok i s =>
      match exec i s with
      | .next s => (ppuPart i s).outcome
      | .fault f => .fault f
      | .refused r => .refused r

/-- `s` with the instruction of the bits `w` stored where `step` fetches its next instruction (log entries 1, 21). -/
def State.withFetchWord (s : State) (nbits w : Nat) : State :=
  let t := quiesce s
  placeBytes (tableWordBytes nbits w) (fetchPlace t) (t.setPc (fetchPlace t))

end Sys2Proof.Machine
end

