-- ==== Sys2Proof/Machine/Forms.lean ====
section
/-! DEFINITION. The operand form of each instruction, the vocabulary in which statements quantify over the forms of a
mnemonic (40 R167). No meaning calls it. -/

namespace Sys2Proof.Machine

/-- The operand form of an instruction. -/
def formOf : Instr → Form
  | .ldaImmediate v => .immediate v
  | .ldaZeroPage d8 => .zeroPage d8
  | .ldaZeroPageX d8 => .zeroPageX d8
  | .ldaAbsolute a16 => .absolute a16
  | .ldaAbsoluteX a16 => .absoluteX a16
  | .ldaAbsoluteY a16 => .absoluteY a16
  | .ldaPreIndexedIndirect d8 => .preIndexedIndirect d8
  | .ldaPostIndexedIndirect d8 => .postIndexedIndirect d8
  | .ldxImmediate v => .immediate v
  | .ldxZeroPage d8 => .zeroPage d8
  | .ldxZeroPageY d8 => .zeroPageY d8
  | .ldxAbsolute a16 => .absolute a16
  | .ldxAbsoluteY a16 => .absoluteY a16
  | .ldyImmediate v => .immediate v
  | .ldyZeroPage d8 => .zeroPage d8
  | .ldyZeroPageX d8 => .zeroPageX d8
  | .ldyAbsolute a16 => .absolute a16
  | .ldyAbsoluteX a16 => .absoluteX a16
  | .staZeroPage d8 => .zeroPage d8
  | .staZeroPageX d8 => .zeroPageX d8
  | .staAbsolute a16 => .absolute a16
  | .staAbsoluteX a16 => .absoluteX a16
  | .staAbsoluteY a16 => .absoluteY a16
  | .staPreIndexedIndirect d8 => .preIndexedIndirect d8
  | .staPostIndexedIndirect d8 => .postIndexedIndirect d8
  | .stxZeroPage d8 => .zeroPage d8
  | .stxZeroPageY d8 => .zeroPageY d8
  | .stxAbsolute a16 => .absolute a16
  | .styZeroPage d8 => .zeroPage d8
  | .styZeroPageX d8 => .zeroPageX d8
  | .styAbsolute a16 => .absolute a16
  | .tax => .implied
  | .tay => .implied
  | .txa => .implied
  | .tya => .implied
  | .tsx => .implied
  | .txs => .implied
  | .adcImmediate v => .immediate v
  | .adcZeroPage d8 => .zeroPage d8
  | .adcZeroPageX d8 => .zeroPageX d8
  | .adcAbsolute a16 => .absolute a16
  | .adcAbsoluteX a16 => .absoluteX a16
  | .adcAbsoluteY a16 => .absoluteY a16
  | .adcPreIndexedIndirect d8 => .preIndexedIndirect d8
  | .adcPostIndexedIndirect d8 => .postIndexedIndirect d8
  | .sbcImmediate v => .immediate v
  | .sbcZeroPage d8 => .zeroPage d8
  | .sbcZeroPageX d8 => .zeroPageX d8
  | .sbcAbsolute a16 => .absolute a16
  | .sbcAbsoluteX a16 => .absoluteX a16
  | .sbcAbsoluteY a16 => .absoluteY a16
  | .sbcPreIndexedIndirect d8 => .preIndexedIndirect d8
  | .sbcPostIndexedIndirect d8 => .postIndexedIndirect d8
  | .cmpImmediate v => .immediate v
  | .cmpZeroPage d8 => .zeroPage d8
  | .cmpZeroPageX d8 => .zeroPageX d8
  | .cmpAbsolute a16 => .absolute a16
  | .cmpAbsoluteX a16 => .absoluteX a16
  | .cmpAbsoluteY a16 => .absoluteY a16
  | .cmpPreIndexedIndirect d8 => .preIndexedIndirect d8
  | .cmpPostIndexedIndirect d8 => .postIndexedIndirect d8
  | .cpxImmediate v => .immediate v
  | .cpxZeroPage d8 => .zeroPage d8
  | .cpxAbsolute a16 => .absolute a16
  | .cpyImmediate v => .immediate v
  | .cpyZeroPage d8 => .zeroPage d8
  | .cpyAbsolute a16 => .absolute a16
  | .incZeroPage d8 => .zeroPage d8
  | .incZeroPageX d8 => .zeroPageX d8
  | .incAbsolute a16 => .absolute a16
  | .incAbsoluteX a16 => .absoluteX a16
  | .decZeroPage d8 => .zeroPage d8
  | .decZeroPageX d8 => .zeroPageX d8
  | .decAbsolute a16 => .absolute a16
  | .decAbsoluteX a16 => .absoluteX a16
  | .inx => .implied
  | .iny => .implied
  | .dex => .implied
  | .dey => .implied
  | .andImmediate v => .immediate v
  | .andZeroPage d8 => .zeroPage d8
  | .andZeroPageX d8 => .zeroPageX d8
  | .andAbsolute a16 => .absolute a16
  | .andAbsoluteX a16 => .absoluteX a16
  | .andAbsoluteY a16 => .absoluteY a16
  | .andPreIndexedIndirect d8 => .preIndexedIndirect d8
  | .andPostIndexedIndirect d8 => .postIndexedIndirect d8
  | .oraImmediate v => .immediate v
  | .oraZeroPage d8 => .zeroPage d8
  | .oraZeroPageX d8 => .zeroPageX d8
  | .oraAbsolute a16 => .absolute a16
  | .oraAbsoluteX a16 => .absoluteX a16
  | .oraAbsoluteY a16 => .absoluteY a16
  | .oraPreIndexedIndirect d8 => .preIndexedIndirect d8
  | .oraPostIndexedIndirect d8 => .postIndexedIndirect d8
  | .eorImmediate v => .immediate v
  | .eorZeroPage d8 => .zeroPage d8
  | .eorZeroPageX d8 => .zeroPageX d8
  | .eorAbsolute a16 => .absolute a16
  | .eorAbsoluteX a16 => .absoluteX a16
  | .eorAbsoluteY a16 => .absoluteY a16
  | .eorPreIndexedIndirect d8 => .preIndexedIndirect d8
  | .eorPostIndexedIndirect d8 => .postIndexedIndirect d8
  | .bitZeroPage d8 => .zeroPage d8
  | .bitAbsolute a16 => .absolute a16
  | .aslAccumulator => .accumulator
  | .aslZeroPage d8 => .zeroPage d8
  | .aslZeroPageX d8 => .zeroPageX d8
  | .aslAbsolute a16 => .absolute a16
  | .aslAbsoluteX a16 => .absoluteX a16
  | .lsrAccumulator => .accumulator
  | .lsrZeroPage d8 => .zeroPage d8
  | .lsrZeroPageX d8 => .zeroPageX d8
  | .lsrAbsolute a16 => .absolute a16
  | .lsrAbsoluteX a16 => .absoluteX a16
  | .rolAccumulator => .accumulator
  | .rolZeroPage d8 => .zeroPage d8
  | .rolZeroPageX d8 => .zeroPageX d8
  | .rolAbsolute a16 => .absolute a16
  | .rolAbsoluteX a16 => .absoluteX a16
  | .rorAccumulator => .accumulator
  | .rorZeroPage d8 => .zeroPage d8
  | .rorZeroPageX d8 => .zeroPageX d8
  | .rorAbsolute a16 => .absolute a16
  | .rorAbsoluteX a16 => .absoluteX a16
  | .bcc disp => .relative disp
  | .bcs disp => .relative disp
  | .beq disp => .relative disp
  | .bne disp => .relative disp
  | .bmi disp => .relative disp
  | .bpl disp => .relative disp
  | .bvc disp => .relative disp
  | .bvs disp => .relative disp
  | .jmpAbsolute a16 => .absolute a16
  | .jmpIndirectAbsolute a16 => .indirectAbsolute a16
  | .jsr a16 => .absolute a16
  | .rts => .implied
  | .pha => .implied
  | .php => .implied
  | .pla => .implied
  | .plp => .implied
  | .clc => .implied
  | .sec => .implied
  | .cli => .implied
  | .sei => .implied
  | .clv => .implied
  | .cld => .implied
  | .sed => .implied
  | .nop => .implied
  | .brk => .implied
  | .rti => .implied
  | .laxZeroPage d8 => .zeroPage d8
  | .laxZeroPageY d8 => .zeroPageY d8
  | .laxAbsolute a16 => .absolute a16
  | .laxAbsoluteY a16 => .absoluteY a16
  | .laxPreIndexedIndirect d8 => .preIndexedIndirect d8
  | .laxPostIndexedIndirect d8 => .postIndexedIndirect d8
  | .saxZeroPage d8 => .zeroPage d8
  | .saxZeroPageY d8 => .zeroPageY d8
  | .saxAbsolute a16 => .absolute a16
  | .saxPreIndexedIndirect d8 => .preIndexedIndirect d8
  | .dcpZeroPage d8 => .zeroPage d8
  | .dcpZeroPageX d8 => .zeroPageX d8
  | .dcpAbsolute a16 => .absolute a16
  | .dcpAbsoluteX a16 => .absoluteX a16
  | .dcpAbsoluteY a16 => .absoluteY a16
  | .dcpPreIndexedIndirect d8 => .preIndexedIndirect d8
  | .dcpPostIndexedIndirect d8 => .postIndexedIndirect d8
  | .isbZeroPage d8 => .zeroPage d8
  | .isbZeroPageX d8 => .zeroPageX d8
  | .isbAbsolute a16 => .absolute a16
  | .isbAbsoluteX a16 => .absoluteX a16
  | .isbAbsoluteY a16 => .absoluteY a16
  | .isbPreIndexedIndirect d8 => .preIndexedIndirect d8
  | .isbPostIndexedIndirect d8 => .postIndexedIndirect d8
  | .sloZeroPage d8 => .zeroPage d8
  | .sloZeroPageX d8 => .zeroPageX d8
  | .sloAbsolute a16 => .absolute a16
  | .sloAbsoluteX a16 => .absoluteX a16
  | .sloAbsoluteY a16 => .absoluteY a16
  | .sloPreIndexedIndirect d8 => .preIndexedIndirect d8
  | .sloPostIndexedIndirect d8 => .postIndexedIndirect d8
  | .sreZeroPage d8 => .zeroPage d8
  | .sreZeroPageX d8 => .zeroPageX d8
  | .sreAbsolute a16 => .absolute a16
  | .sreAbsoluteX a16 => .absoluteX a16
  | .sreAbsoluteY a16 => .absoluteY a16
  | .srePreIndexedIndirect d8 => .preIndexedIndirect d8
  | .srePostIndexedIndirect d8 => .postIndexedIndirect d8
  | .rlaZeroPage d8 => .zeroPage d8
  | .rlaZeroPageX d8 => .zeroPageX d8
  | .rlaAbsolute a16 => .absolute a16
  | .rlaAbsoluteX a16 => .absoluteX a16
  | .rlaAbsoluteY a16 => .absoluteY a16
  | .rlaPreIndexedIndirect d8 => .preIndexedIndirect d8
  | .rlaPostIndexedIndirect d8 => .postIndexedIndirect d8
  | .rraZeroPage d8 => .zeroPage d8
  | .rraZeroPageX d8 => .zeroPageX d8
  | .rraAbsolute a16 => .absolute a16
  | .rraAbsoluteX a16 => .absoluteX a16
  | .rraAbsoluteY a16 => .absoluteY a16
  | .rraPreIndexedIndirect d8 => .preIndexedIndirect d8
  | .rraPostIndexedIndirect d8 => .postIndexedIndirect d8

end Sys2Proof.Machine
end

