-- ==== Sys2Proof/Machine/HostInterface.lean ====
section
/-! DEFINITION. The boundary with the host (51 R443): boot, the terminal state after a fault, the image as the renderer
receives it, observation. -/

namespace Sys2Proof.Machine

/-- The boot sequence (70 R534): power-on with the parameters attached, then `CPU.reset()`. -/
def boot (c : Config) : Result Unit := cpuReset (State.powerOn c)

/-- FREE VALUE. What the rest of the state holds after a fault: the spec promises nothing about it (60 R470, decision
D39; log entry 9). -/
opaque partialEffects (s : State) (f : Fault) : State

/-- `Machine.step()` as the host sees it (51 R440): the state after it. A raised fault leaves the terminal state that
names it (00 R8, 60 R470); a faulted machine does nothing. -/
def hostStep (s : State) : State :=
  match s.fault with
  | some _ => s
  | none =>
    match step s with
    | .next t => t
    | .fault f => { partialEffects s f with fault := some f }
    | .refused _ => s

/-- The {R,G,B} triple of a pixel (10 R55, 50 R361; log entry 5). -/
def Pixel.rgb : Pixel → Rgb
  | .black => ⟨0, 0, 0⟩
  | .colour c => Config.masterPalette c

/-- The pixel the renderer received at row `y`, column `x` of the last frame (50 R353). -/
def renderedPixel (s : State) (y x : Nat) : Rgb := (gridGet .black s.render.frame y x).rgb

/-- What the host may observe between master steps (51 R443, 60 R496). -/
structure Observation where
  cpu   : Cpu
  cycle : Nat
  line  : Nat
  next  : Option OpcodeRow
deriving DecidableEq, Repr

/-- The row of the operation a template belongs to, with its count of the operation table.
DESIGN CHOICE (log entry 23): 60 R496 does not say which cycle count the observed operation carries where
`Config.cycleTable` replaces one, and the row keeps the table's own; `cyclesOf` is the count a step uses. -/
def templateRow : Template → OpcodeRow
  | .none i => i.row
  | .byte build => (build 0).row
  | .word build => (build 0).row

/-- The next-to-execute operation at `PC`, looked at without an effect (51 R443, 60 R496).
DESIGN CHOICE (log entry 23): it is the entry of the byte at the current `PC`, also where the next step first runs a
host action, drains a DMA request or services an NMI or an unmasked IRQ and so executes another instruction; it is
none where the byte cannot be read or has no entry. -/
def nextOperation (s : State) : Option OpcodeRow :=
  match memRead s.cpu.pc s with
  | .ok b _ => (opcodeEntry b).map templateRow
  | .fault _ => none

/-- The observation: a function of the state, which it does not change (60 R496). -/
def observe (s : State) : Observation where
  cpu := s.cpu
  cycle := s.ppu.cycle
  line := s.ppu.line
  next := nextOperation s

end Sys2Proof.Machine
end

