-- ==== Sys2Proof/Safety.lean ====
section
/-! DEFINITION. The words in which statements about the machine are written: what is attached, what a bus access may
change, what memory holds, the invariants of a running machine. No meaning calls a definition of this file. -/

namespace Sys2Proof.Machine

/-- Program ROM and character memory are attached (70 R534): with both, no access finds a resource absent (60 R474). -/
def Connected (s : State) : Prop := s.config.prgRom.isSome = true ∧ s.chr.isSome = true

/-- `t` is `s` but for what a CPU-bus read may change (20 R109): the vblank bit and the write toggle (port 2), the read
buffer and the video address (port 7), the keypad cursors. -/
def ReadEffects (s t : State) : Prop :=
  t = { s with
    ppu := { s.ppu with
      status := t.ppu.status
      writeToggle := t.ppu.writeToggle
      readBuffer := t.ppu.readBuffer
      videoRamAddress := t.ppu.videoRamAddress }
    keypad1 := { s.keypad1 with cursor := t.keypad1.cursor }
    keypad2 := { s.keypad2 with cursor := t.keypad2.cursor } } ∧
  t.ppu.status &&& 0x7F = s.ppu.status &&& 0x7F

/-- The addresses whose read has a side effect (20 R109): PPU ports 2 and 7 in their window, the two keypad ports. -/
def readHasEffect (a : Word) : Bool :=
  (decide (0x2000 ≤ a.toNat ∧ a.toNat < 0x4000) && (a.toNat % 8 == 2 || a.toNat % 8 == 7)) ||
    a == 0x4016 || a == 0x4017

/-- `t` is `s` but for what a CPU-bus write to address `a` may change (20 R82 to R90, 50 R371): in the working RAM window
one byte of working RAM; in the PPU window the port registers and the memories behind ports 4 and 7, never a counter, the
status byte or the image; at 0x4014 the DMA latch; at 0x4016 and 0x4017 that keypad; elsewhere nothing. -/
def WriteEffects (a : Word) (s t : State) : Prop :=
  if a.toNat < 0x2000 then
    t = { s with wram := t.wram } ∧
      ∀ k, k ≠ a.toNat % 0x800 → byteAt t.wram k = byteAt s.wram k
  else if a.toNat < 0x4000 then
    t = { s with
      ppu := { t.ppu with
        status := s.ppu.status
        readBuffer := s.ppu.readBuffer
        cycle := s.ppu.cycle
        line := s.ppu.line
        image := s.ppu.image
        bgOpaque := s.ppu.bgOpaque }
      chr := t.chr
      vram := t.vram
      palette := t.palette }
  else if a = 0x4014 then t = { s with dma := t.dma }
  else if a = 0x4016 then t = { s with keypad1 := t.keypad1 }
  else if a = 0x4017 then t = { s with keypad2 := t.keypad2 }
  else t = s

/-- The byte that memory holds behind a CPU address: working RAM or attached program ROM (20 R83, R89). A port or an
unimplemented range holds none. -/
def storedByte (s : State) (a : Word) : Option Byte :=
  if a.toNat < 0x2000 then some (byteAt s.wram (a.toNat % 0x800))
  else if a.toNat < 0x8000 then none
  else s.config.prgRom.map fun rom => byteAt rom.bytes (prgOffset rom.size a.toNat)

/-- The word at CPU addresses `a` and `a + 1` of an attached program ROM, low byte first: the vectors (20 R115). -/
def romWord (rom : PrgRom) (a : Nat) : Word :=
  wordOfBytes (byteAt rom.bytes (prgOffset rom.size a)) (byteAt rom.bytes (prgOffset rom.size (a + 1)))

/-- The word at offsets `k` and `k + 1` of working RAM, low byte first. -/
def wramWord (s : State) (k : Nat) : Word := wordOfBytes (byteAt s.wram k) (byteAt s.wram (k + 1))

/-- `n` fetches in a row (40 R165). -/
def fetchBytes : Nat → State → Result (List Byte)
  | 0, s => .ok [] s
  | n + 1, s => (fetch s).bind fun b s => (fetchBytes n s).bind fun bs s => .ok (b :: bs) s

/-- `n` reads of one address in a row (20 R81). -/
def readBytes (a : Word) : Nat → State → Result (List Byte)
  | 0, s => .ok [] s
  | n + 1, s => (memRead a s).bind fun b s => (readBytes a n s).bind fun bs s => .ok (b :: bs) s

/-- Memory `after` is memory `before` with exactly the listed bytes stored: every other byte reads as before. -/
def StoredBytes (before after : Memory) (bytes : List (Nat × Byte)) : Prop :=
  ∀ k, byteAt after k = (bytes.lookup k).getD (byteAt before k)

/-- A mnemonic has exactly the rows `forms`, given as opcode byte and addressing mode: the *Operands* and *Encoding*
lines of an instruction rule (41 R190). -/
def HasForms (name : Mnemonic) (forms : List (Byte × AddressingMode)) : Prop :=
  ∀ opcode mode, (opcode, mode) ∈ forms ↔
    ∃ i : Instr, i.row.name = name ∧ i.row.opcode = opcode ∧ i.row.mode = mode

/-- Every instruction of a mnemonic reads one operand byte, by its form, and then has `effect` on registers and flags. It
completes in every connected state, and in every state where its operand can be read; it faults only where that read
does. Beside `effect` it changes only what a read may change (20 R109). -/
def ReadsThen (name : Mnemonic) (effect : Byte → State → State) : Prop :=
  ∀ (i : Instr) (s : State), i.row.name = name →
    (Connected s → ∃ m t, operandByte (formOf i) s = .ok m t ∧ exec i s = .next (effect m t)) ∧
    (∀ m t, operandByte (formOf i) s = .ok m t → ReadEffects s t ∧ exec i s = .next (effect m t)) ∧
    (∀ f, operandByte (formOf i) s = .fault f → exec i s = .fault f)

/-- Every instruction of a mnemonic stores the byte `source` at the address its form resolves to, reads nothing there
first, and writes no register and no flag. It completes in every connected state. -/
def StoresByte (name : Mnemonic) (source : State → Byte) : Prop :=
  ∀ (i : Instr) (s : State), i.row.name = name →
    (Connected s → ∃ a t u, resolve (formOf i) s = .ok (.address a) t ∧ memWrite a (source s) t = .ok () u ∧
      exec i s = .next u) ∧
    ∀ a t u, resolve (formOf i) s = .ok (.address a) t → memWrite a (source s) t = .ok () u →
      exec i s = .next u ∧ ReadEffects s t ∧ WriteEffects a t u ∧ u.cpu = s.cpu

/-- Every memory row of a read-modify-write mnemonic makes one read and one write at the address its form resolves to
(43 R253): of the byte `m` read and the carry before it stores `result m c`, then has `effect` on registers and flags. It
completes in every connected state. -/
def ModifiesMemory (name : Mnemonic) (result : Byte → Bool → Byte) (effect : Byte → State → State) : Prop :=
  ∀ (i : Instr) (s : State), i.row.name = name → i.row.mode ≠ .accumulator →
    (Connected s → ∃ a t m u w, resolve (formOf i) s = .ok (.address a) t ∧ memRead a t = .ok m u ∧
      memWrite a (result m (s.flag .C)) u = .ok () w ∧ exec i s = .next (effect m w)) ∧
    ∀ a t m u w, resolve (formOf i) s = .ok (.address a) t → memRead a t = .ok m u →
      memWrite a (result m (s.flag .C)) u = .ok () w →
      exec i s = .next (effect m w) ∧ ReadEffects s u ∧ WriteEffects a u w

/-- The mnemonics that transfer control other than by a taken branch (40 R184). -/
def transfersControl (name : Mnemonic) : Bool :=
  name == .JMP || name == .JSR || name == .RTS || name == .RTI || name == .BRK

/-- The condition of a branch mnemonic (44 R271 to R278); false for every other mnemonic. -/
def branchCondition (name : Mnemonic) (s : State) : Bool :=
  match name with
  | .BCC => !s.flag .C
  | .BCS => s.flag .C
  | .BEQ => s.flag .Z
  | .BNE => !s.flag .Z
  | .BMI => s.flag .N
  | .BPL => !s.flag .N
  | .BVC => !s.flag .V
  | .BVS => s.flag .V
  | _ => false

/-- The 53 opcode bytes without a table entry (30 R146). -/
def undefinedOpcodes : List Byte :=
  [0x02, 0x04, 0x0B, 0x0C, 0x12, 0x14, 0x1A, 0x1C, 0x22, 0x2B, 0x32, 0x34, 0x3A, 0x3C,
   0x42, 0x44, 0x4B, 0x52, 0x54, 0x5A, 0x5C, 0x62, 0x64, 0x6B, 0x72, 0x74, 0x7A, 0x7C] ++
  [0x80, 0x82, 0x89, 0x8B, 0x92, 0x93, 0x9B, 0x9C, 0x9E, 0x9F, 0xAB, 0xB2, 0xBB, 0xC2,
   0xCB, 0xD2, 0xD4, 0xDA, 0xDC, 0xE2, 0xEB, 0xF2, 0xF4, 0xFA, 0xFC]

/-- No interrupt is serviced at the poll (60 R483). -/
def NoInterrupt (s : State) : Prop := s.int.nmi = false ∧ (s.int.irq = false ∨ s.flag .I = true)

/-- Nothing stands between a master step and its instruction fetch: no fault, no host action, no DMA request, no
interrupt to service. -/
def Quiet (s : State) : Prop :=
  s.fault = none ∧ s.schedule = [] ∧ s.dma.pending = false ∧ NoInterrupt s

/-- `SP` lies in page 1 (10 R24). -/
def StackInPage (s : State) : Prop := 0x0100 ≤ s.cpu.sp.toNat ∧ s.cpu.sp.toNat ≤ 0x01FF

/-- The place of the PPU in its frame, in PPU steps since line 0, cycle 0 (50 R351). -/
def framePosition (s : State) : Nat := 341 * s.ppu.line + s.ppu.cycle

/-- The PPU counters are in range (10 R53). -/
def CountersInRange (s : State) : Prop := s.ppu.cycle ≤ 340 ∧ s.ppu.line ≤ 261

/-- What holds of the registers of every running machine: `SP` in page 1 (10 R24), the reserved flag set (10 R31), the
counters in range (10 R53), status bits 5 to 0 clear (10 R47), the keypad cursors below 8 (10 R66). -/
structure RegisterInv (s : State) : Prop where
  stack    : StackInPage s
  reserved : s.flag .R = true
  counters : CountersInRange s
  status   : s.ppu.status &&& 0x3F = 0
  cursor1  : s.keypad1.cursor < 8
  cursor2  : s.keypad2.cursor < 8

/-- What holds of the memories of every running machine: each is in canonical form within its size (10 R54 to R62), only
the reachable 4 KiB of video RAM (10 R61) and no aliased palette entry (10 R62) ever list a byte. -/
structure MemoryInv (s : State) : Prop where
  wram      : s.wram.wf 0x800
  vram      : s.vram.wf 0x1000
  palette   : s.palette.wf 0x20
  unaliased : ∀ c ∈ s.palette, c.1 ≠ 0x10 ∧ c.1 ≠ 0x14 ∧ c.1 ≠ 0x18 ∧ c.1 ≠ 0x1C
  sprites   : s.ppu.spriteRam.wf 0x100
  chr       : ∀ m, s.chr = some m → m.wf 0x2000
  image     : GridWf Pixel.black s.ppu.image
  opacity   : GridWf false s.ppu.bgOpaque

/-- The byte a PPU-bus read of `a` gives; 0x00 where it would fault. -/
def ppuByte (a : Nat) (s : State) : Byte :=
  match ppuBusRead (BitVec.ofNat 16 a) s with
  | .ok v _ => v
  | .fault _ => 0x00

/-- The cell behind a PPU address: the memory and the offset in it (20 R95 to R101). -/
inductive PpuCell where
  | chr (offset : Nat)
  | vram (offset : Nat)
  | palette (offset : Nat)
deriving DecidableEq, Repr

/-- The cell that PPU address `a` reaches under the parameters `c`. -/
def ppuCell (c : Config) (a : Word) : PpuCell :=
  let b := a.toNat % 0x4000
  if b < 0x2000 then .chr b
  else if b < 0x3F00 then .vram (nametableMirror c (b % 0x1000))
  else
    let i := b % 0x20
    .palette (if i = 0x10 ∨ i = 0x14 ∨ i = 0x18 ∨ i = 0x1C then i - 0x10 else i)

/-- The 2-bit pixel value of bit `7 - c` of two plane bytes (50 R360). -/
def planePixel (lo hi : Byte) (c : Nat) : Nat := 2 * (hi.getLsbD (7 - c)).toNat + (lo.getLsbD (7 - c)).toNat

/-- The colour number that sprite `n` shows at row `y`, column `x` of the image, and none where it covers nothing there,
is transparent, or is hidden behind an opaque background pixel (50 R364, R365). -/
def spriteColour (s : State) (n y x : Nat) : Option (BitVec 6) :=
  let sy := (byteAt s.ppu.spriteRam (4 * n)).toNat
  let tile := (byteAt s.ppu.spriteRam (4 * n + 1)).toNat
  let attr := byteAt s.ppu.spriteRam (4 * n + 2)
  let sx := (byteAt s.ppu.spriteRam (4 * n + 3)).toNat
  if sy ≤ y ∧ y < sy + 8 ∧ y < 240 ∧ sx ≤ x ∧ x < sx + 8 ∧ x < 256 then
    let row := if attr.getLsbD 7 then 7 - (y - sy) else y - sy
    let column := if attr.getLsbD 6 then 7 - (x - sx) else x - sx
    let base := 0x1000 * (s.ppu.control.getLsbD 3).toNat + 16 * tile + row
    let pix := planePixel (ppuByte base s) (ppuByte (base + 8) s) column
    if pix = 0 ∨ (attr.getLsbD 5 = true ∧ gridGet false s.ppu.bgOpaque y x = true) then none
    else some ((ppuByte (0x3F10 + 4 * (attr.toNat % 4) + pix) s).setWidth 6)
  else none

/-- `s` and `t` agree on everything but the output of the PPU: the image, the opacity bits and the frame last handed to
the renderer. -/
def SameButImage (s t : State) : Prop :=
  t = { s with
    ppu := { s.ppu with image := t.ppu.image, bgOpaque := t.ppu.bgOpaque }
    render := { s.render with frame := t.render.frame } }

/-- `t` is `s` but for what a PPU step may change (50 R350 to R365): the counters, the status byte, the image and its
opacity bits, the NMI latch, the render event. -/
def PpuEffects (s t : State) : Prop :=
  t = { s with
    ppu := { s.ppu with
      status := t.ppu.status
      cycle := t.ppu.cycle
      line := t.ppu.line
      image := t.ppu.image
      bgOpaque := t.ppu.bgOpaque }
    int := { s.int with nmi := t.int.nmi }
    render := t.render }

/-- Two outcomes of a step that agree: both the same fault or refusal, or two next states related by `R`. -/
def OutcomesAgree (R : State → State → Prop) (o p : Host.Outcome State Fault Refusal) : Prop :=
  match o, p with
  | .next s, .next t => R s t
  | .fault f, .fault g => f = g
  | .refused q, .refused r => q = r
  | _, _ => False

end Sys2Proof.Machine
end

