-- ==== Sys2Proof/Certificates/Slice0/Obligations.lean ====
section
/-! DEFINITION. The statements for the provers, from the numbered rules of spec/. A statement about an instruction is
about `exec` on the state after its fetch, so that PC there is the address of the next instruction (41 R190). -/

section

open Sys2Proof Sys2Proof.Machine

/-- The words of the example column of R149 decode to the instructions they stand for (30 R149, 30 R144, 30 R145).
Rests on the choices of log entry 15. -/
def Obligations.DecodedWords : Prop :=
  decode [0x18] = .instr .clc [] ∧ decode [0x0A] = .instr .aslAccumulator [] ∧
  decode [0xA9, 0x05] = .instr (.ldaImmediate 0x05) [] ∧ decode [0xA5, 0x10] = .instr (.ldaZeroPage 0x10) [] ∧
  decode [0xB5, 0x10] = .instr (.ldaZeroPageX 0x10) [] ∧ decode [0xB6, 0x10] = .instr (.ldxZeroPageY 0x10) [] ∧
  decode [0xAD, 0x34, 0x12] = .instr (.ldaAbsolute 0x1234) [] ∧
  decode [0xBD, 0x34, 0x12] = .instr (.ldaAbsoluteX 0x1234) [] ∧
  decode [0xB9, 0x34, 0x12] = .instr (.ldaAbsoluteY 0x1234) [] ∧
  decode [0x6C, 0x34, 0x12] = .instr (.jmpIndirectAbsolute 0x1234) [] ∧
  decode [0xA1, 0x10] = .instr (.ldaPreIndexedIndirect 0x10) [] ∧
  decode [0xB1, 0x10] = .instr (.ldaPostIndexedIndirect 0x10) [] ∧ decode [0xD0, 0xFB] = .instr (.bne (-5)) [] ∧
  decode [0x69, 0x50] = .instr (.adcImmediate 0x50) [] ∧ decode [0x29, 0x0F] = .instr (.andImmediate 0x0F) [] ∧
  decode [0x00] = .instr .brk [] ∧ decode [0x07, 0x10] = .instr (.sloZeroPage 0x10) []

/-- Decoding an encoded well-formed instruction gives it back, whatever bytes follow (30 R140, 30 R142, 30 R143).
Rests on the choices of log entries 14 and 15. -/
def Obligations.DecodeOfEncodeGivesTheInstructionBack : Prop :=
  ∀ (i : Instr) (rest : List Byte), i.wellFormed = true → decode (encode i ++ rest) = .instr i rest

/-- What decodes to an instruction is its encoding: every word has one meaning and no bit is dropped (30 R140, 30
R142, 30 R148). Rests on the choices of log entries 14 and 15. -/
def Obligations.EncodeOfDecodeGivesTheBytesBack : Prop :=
  ∀ (bytes : List Byte) (i : Instr) (rest : List Byte), decode bytes = .instr i rest →
    i.wellFormed = true ∧ encode i ++ rest = bytes

/-- Exactly the 53 bytes of R146 have no instruction, and fetching one raises InvalidOpcode with that byte (30 R146,
60 R471). Rests on the choices of log entry 15. -/
def Obligations.UndefinedOpcodesRaiseInvalidOpcode : Prop :=
  undefinedOpcodes.length = 53 ∧ undefinedOpcodes.Nodup ∧
  (∀ (opcode : Byte) (rest : List Byte), decode (opcode :: rest) = .invalidOpcode opcode ↔ opcode ∈ undefinedOpcodes) ∧
  ∀ (s s1 s2 : State) (opcode : Byte), s.fault = none → beforeFetch s = .ok () s1 → fetch s1 = .ok opcode s2 →
    opcode ∈ undefinedOpcodes → step s = .fault (.invalidOpcode opcode)

/-- The addressing mode alone fixes the operand byte count and the length (30 R141). -/
def Obligations.InstructionLengthFollowsTheMode : Prop :=
  (∀ mode : AddressingMode, mode.operandBytes = match mode with
    | .implied | .accumulator => 0
    | .immediate | .zeroPage | .zeroPageX | .zeroPageY | .relative | .preIndexedIndirect | .postIndexedIndirect => 1
    | .absolute | .absoluteX | .absoluteY | .indirectAbsolute => 2) ∧
  ∀ i : Instr, (encode i).length = 1 + i.row.mode.operandBytes ∧ i.length = 1 + i.row.mode.operandBytes ∧
    (encode i).head? = some i.row.opcode

/-- A step is exec of the instruction that the bytes at PC decode to, then three PPU steps for each cycle (40 R183,
40 R165, 51 R440, 51 R441). Rests on the choices of log entries 4 and 8. -/
def Obligations.StepRunsTheDecodedInstruction : Prop :=
  (∀ (s s1 s2 : State) (bytes : List Byte) (i : Instr), s.fault = none → beforeFetch s = .ok () s1 →
    decode bytes = .instr i [] → fetchBytes bytes.length s1 = .ok bytes s2 →
    step s = match exec i s2 with
      | .next t => (ppuSteps (3 * cyclesOf t.config i) t).outcome
      | .fault f => .fault f
      | .refused r => .refused r) ∧
  (∀ (s : State) (bytes : List Byte),
    (∀ k, k < bytes.length → storedByte s (s.cpu.pc + BitVec.ofNat 16 k) = bytes[k]?) →
    fetchBytes bytes.length s = .ok bytes (s.setPc (s.cpu.pc + BitVec.ofNat 16 bytes.length))) ∧
  ∀ s : State, Quiet s → beforeFetch s = .ok () s

/-- An instruction that is no control transfer leaves PC at its own address plus its length (40 R184). -/
def Obligations.ProgramCounterLaw : Prop :=
  ∀ (s t u : State) (i : Instr), s.schedule = [] → NoInterrupt s → prepare s = .ok i t →
    transfersControl i.row.name = false → branchCondition i.row.name t = false → step s = .next u →
    u.cpu.pc = s.cpu.pc + BitVec.ofNat 16 i.length

/-- A set fault stops the machine, a raised fault sets it, and the first fault met in the order of R491 ends the
step (10 R68, 60 R470, 00 R8, 60 R491, 60 R479). Rests on the choices of log entries 8, 9 and 20. -/
def Obligations.FaultsAreTerminalAndTheFirstDecides : Prop :=
  (∀ (s : State) (f : Fault), s.fault = some f → step s = .fault f ∧ hostStep s = s) ∧
  (∀ (s : State) (f : Fault), s.fault = none → step s = .fault f → (hostStep s).fault = some f) ∧
  (∀ s t : State, step s = .next t → s.fault = none ∧ t.fault = none ∧ hostStep s = t) ∧
  (∀ (s : State) (f : Fault), hostPart s = .fault f → beforeFetch s = .fault f) ∧
  (∀ (s t : State), hostPart s = .ok () t →
    (∀ f, transferIfRequested t = .fault f → beforeFetch s = .fault f) ∧
    ∀ u f, transferIfRequested t = .ok () u → handleInterrupts u = .fault f → beforeFetch s = .fault f) ∧
  (∀ (vector : Word) (s : State) (f : Fault),
    (pushFrame (s.setFlag .B false) = .fault f → takeInterrupt vector s = .fault f) ∧
    ∀ t, pushFrame (s.setFlag .B false) = .ok () t → readWord vector (t.setFlag .I true) = .fault f →
      takeInterrupt vector s = .fault f) ∧
  (∀ (s : State) (f : Fault), s.fault = none → beforeFetch s = .fault f → step s = .fault f) ∧
  (∀ s s1 : State, s.fault = none → beforeFetch s = .ok () s1 →
    (∀ f, fetch s1 = .fault f ∨ fetchInstr s1 = .fault f → step s = .fault f) ∧
    ∀ opcode s2, fetch s1 = .ok opcode s2 → opcodeEntry opcode = none → step s = .fault (.invalidOpcode opcode)) ∧
  (∀ (s t : State) (i : Instr), s.fault = none → prepare s = .ok i t →
    (∀ f, exec i t = .fault f → step s = .fault f) ∧
    ∀ u f, exec i t = .next u → ppuPart i u = .fault f → step s = .fault f) ∧
  (∀ (i : Instr) (s : State) (f : Fault), resolve (formOf i) s = .fault f → exec i s = .fault f) ∧
  (∀ (i : Instr) (s t : State) (a : Word) (f : Fault), i.row.name ∈ [Mnemonic.STA, .STX, .STY, .SAX] →
    resolve (formOf i) s = .ok (.address a) t → (∀ v, memWrite a v t = .fault f) → exec i s = .fault f) ∧
  (∀ (i : Instr) (s t : State) (a : Word) (f : Fault),
    i.row.name ∈ [Mnemonic.INC, .DEC, .ASL, .LSR, .ROL, .ROR, .DCP, .ISB, .SLO, .SRE, .RLA, .RRA] →
    resolve (formOf i) s = .ok (.address a) t →
    (memRead a t = .fault f → exec i s = .fault f) ∧
    ∀ m u, memRead a t = .ok m u → (∀ v, memWrite a v u = .fault f) → exec i s = .fault f) ∧
  (∀ s : State, s.fault = none → s.schedule = [] → s.dma.pending = true → 8 ≤ s.dma.page.toNat →
    step s = .fault (.dmaSourceOutOfRange s.dma.page)) ∧
  ∀ s : State, s.fault = none → s.schedule = [] → s.dma.pending = false → s.int.nmi = true → s.cpu.sp = 0x0100 →
    step s = .fault (.stackPointerOverflow 0x00FF)

/-- SetNZ writes bit 7 and bit 1 of P from the byte, a flag write writes its bit, and nothing else changes (00 R7). -/
def Obligations.StatusWritesTouchTheirFlagOnly : Prop :=
  (∀ (s : State) (v : Byte), s.setNZ v = s.setP (s.setNZ v).cpu.p ∧
    ∀ k, k < 8 → (s.setNZ v).cpu.p.getLsbD k =
      if k = 7 then v.getLsbD 7 else if k = 1 then decide (v = 0) else s.cpu.p.getLsbD k) ∧
  (∀ (s : State) (f : Flag) (b : Bool), s.setFlag f b = s.setP (s.setFlag f b).cpu.p ∧
    ∀ k, k < 8 → (s.setFlag f b).cpu.p.getLsbD k = if k = f.bit then b else s.cpu.p.getLsbD k) ∧
  [Flag.C, .Z, .I, .D, .B, .R, .V, .N].map Flag.bit = [0, 1, 2, 3, 4, 5, 6, 7]

/-- The direct modes resolve to the operand of their rule, by arithmetic on numbers, and change nothing (40 R168, 40
R169, 40 R170, 40 R171, 40 R172, 40 R173, 40 R174, 40 R175, 40 R176, 40 R180, 40 R181). Rests on the choices of
log entries 14 and 20. -/
def Obligations.AddressingModesResolve : Prop :=
  (∀ s, resolve .implied s = .ok .none s ∧ resolve .accumulator s = .ok .none s) ∧
  (∀ v s, resolve (.immediate v) s = .ok (.value v) s) ∧
  (∀ d s, ∃ a, resolve (.zeroPage d) s = .ok (.address a) s ∧ a.toNat = d.toNat) ∧
  (∀ d s, ∃ a, resolve (.zeroPageX d) s = .ok (.address a) s ∧ a.toNat = (d.toNat + s.cpu.x.toNat) % 0x100) ∧
  (∀ d s, ∃ a, resolve (.zeroPageY d) s = .ok (.address a) s ∧ a.toNat = (d.toNat + s.cpu.y.toNat) % 0x100) ∧
  (∀ w s, resolve (.absolute w) s = .ok (.address w) s) ∧
  (∀ w s, ∃ a, resolve (.absoluteX w) s = .ok (.address a) s ∧ a.toNat = (w.toNat + s.cpu.x.toNat) % 0x10000) ∧
  (∀ w s, ∃ a, resolve (.absoluteY w) s = .ok (.address a) s ∧ a.toNat = (w.toNat + s.cpu.y.toNat) % 0x10000) ∧
  (∀ (d : Byte) (s : State), ∃ a, resolve (.relative (displacementOf d)) s = .ok (.address a) s ∧
    (a.toNat : Int) =
      ((s.cpu.pc.toNat : Int) + (if d.toNat < 0x80 then (d.toNat : Int) else d.toNat - 0x100)) % 0x10000) ∧
  (∀ s, load .none s = .ok s.cpu.a s) ∧ (∀ v s, load (.value v) s = .ok v s) ∧
  ∀ a s, load (.address a) s = memRead a s

/-- The three indirect modes take the low byte at the pointer and the high byte at its plain 16-bit successor (40
R177, 40 R178, 40 R179, 20 R106). Rests on the choices of log entries 13 and 15. -/
def Obligations.IndirectModesDereferencePointers : Prop :=
  (∀ (d : Byte) (s : State), s.config.pageWrapPointers = false →
    (∃ a, resolve (.preIndexedIndirect d) s = .ok (.address a) s ∧
      a.toNat = (byteAt s.wram ((d.toNat + s.cpu.x.toNat) % 0x100)).toNat +
        0x100 * (byteAt s.wram ((d.toNat + s.cpu.x.toNat) % 0x100 + 1)).toNat) ∧
    ∃ a, resolve (.postIndexedIndirect d) s = .ok (.address a) s ∧
      a.toNat = ((byteAt s.wram d.toNat).toNat + 0x100 * (byteAt s.wram (d.toNat + 1)).toNat + s.cpu.y.toNat) % 0x10000) ∧
  (∀ (d : Byte) (s : State), s.config.pageWrapPointers = true →
    (∃ a, resolve (.preIndexedIndirect d) s = .ok (.address a) s ∧
      a.toNat = (byteAt s.wram ((d.toNat + s.cpu.x.toNat) % 0x100)).toNat +
        0x100 * (byteAt s.wram ((d.toNat + s.cpu.x.toNat + 1) % 0x100)).toNat) ∧
    ∃ a, resolve (.postIndexedIndirect d) s = .ok (.address a) s ∧
      a.toNat = ((byteAt s.wram d.toNat).toNat + 0x100 * (byteAt s.wram ((d.toNat + 1) % 0x100)).toNat +
        s.cpu.y.toNat) % 0x10000) ∧
  ∀ (p : Word) (s t u : State) (lo hi : Byte), s.config.pageWrapPointers = false → memRead p s = .ok lo t →
    memRead (p + 1) t = .ok hi u →
    ∃ a, resolve (.indirectAbsolute p) s = .ok (.address a) u ∧ a.toNat = lo.toNat + 0x100 * hi.toNat

/-- LDA, LDX and LDY load the operand byte into their register, set N and Z from it, and change nothing else (41
R191, 41 R192, 41 R193). Rests on the choices of log entries 15 and 17. -/
def Obligations.LoadsSetTheirRegisterAndNZ : Prop :=
  HasForms .LDA [(0xA9, .immediate), (0xA5, .zeroPage), (0xB5, .zeroPageX), (0xAD, .absolute),
    (0xBD, .absoluteX), (0xB9, .absoluteY), (0xA1, .preIndexedIndirect), (0xB1, .postIndexedIndirect)] ∧
  HasForms .LDX [(0xA2, .immediate), (0xA6, .zeroPage), (0xB6, .zeroPageY), (0xAE, .absolute),
    (0xBE, .absoluteY)] ∧
  HasForms .LDY [(0xA0, .immediate), (0xA4, .zeroPage), (0xB4, .zeroPageX), (0xAC, .absolute),
    (0xBC, .absoluteX)] ∧
  ReadsThen .LDA (fun m t => (t.setA m).setNZ m) ∧
  ReadsThen .LDX (fun m t => (t.setX m).setNZ m) ∧
  ReadsThen .LDY (fun m t => (t.setY m).setNZ m)

/-- STA, STX and STY write their register to the address of the operand and change nothing else (41 R194, 41 R195,
41 R196). Rests on the choices of log entries 15 and 20. -/
def Obligations.StoresWriteTheirRegister : Prop :=
  HasForms .STA [(0x85, .zeroPage), (0x95, .zeroPageX), (0x8D, .absolute), (0x9D, .absoluteX),
    (0x99, .absoluteY), (0x81, .preIndexedIndirect), (0x91, .postIndexedIndirect)] ∧
  HasForms .STX [(0x86, .zeroPage), (0x96, .zeroPageY), (0x8E, .absolute)] ∧
  HasForms .STY [(0x84, .zeroPage), (0x94, .zeroPageX), (0x8C, .absolute)] ∧
  StoresByte .STA (fun s => s.cpu.a) ∧ StoresByte .STX (fun s => s.cpu.x) ∧ StoresByte .STY (fun s => s.cpu.y)

/-- A byte stored in the working RAM window is what every mirror reads back, and no other byte changes (41 R194, 20
R83, 20 R113). -/
def Obligations.StoreThenReadInWorkingRam : Prop :=
  ∀ (a b : Word) (v : Byte) (s : State), a.toNat < 0x2000 → b.toNat < 0x2000 →
    ∃ t, memWrite a v s = .ok () t ∧ t = { s with wram := t.wram } ∧
      memRead b t = .ok (if a.toNat % 0x800 = b.toNat % 0x800 then v else byteAt s.wram (b.toNat % 0x800)) t

/-- TAX, TAY, TXA and TYA copy a register and set N and Z from it (41 R197, 41 R198, 41 R199, 41 R200). Rests on the
choices of log entry 15. -/
def Obligations.TransfersCopyAndSetNZ : Prop :=
  HasForms .TAX [(0xAA, .implied)] ∧
  HasForms .TAY [(0xA8, .implied)] ∧
  HasForms .TXA [(0x8A, .implied)] ∧
  HasForms .TYA [(0x98, .implied)] ∧
  ∀ s : State, exec .tax s = .next ((s.setX s.cpu.a).setNZ s.cpu.a) ∧
    exec .tay s = .next ((s.setY s.cpu.a).setNZ s.cpu.a) ∧
    exec .txa s = .next ((s.setA s.cpu.x).setNZ s.cpu.x) ∧
    exec .tya s = .next ((s.setA s.cpu.y).setNZ s.cpu.y)

/-- ADC: A takes A + m + C modulo 256; C, V, N and Z by the rule; nothing else changes (42 R220). Rests on the
choices of log entries 15 and 20. -/
def Obligations.AdcAddsWithCarry : Prop :=
  HasForms .ADC [(0x69, .immediate), (0x65, .zeroPage), (0x75, .zeroPageX), (0x6D, .absolute),
    (0x7D, .absoluteX), (0x79, .absoluteY), (0x61, .preIndexedIndirect), (0x71, .postIndexedIndirect)] ∧
  ReadsThen .ADC (fun m t =>
    let c := if t.flag .C then 1 else 0
    let sum := t.cpu.a.toNat + m.toNat + c
    let r := BitVec.ofNat 8 sum
    (((t.setFlag .C (decide (0xFF < sum))).setFlag .V
      (decide ((t.cpu.a ^^^ m) &&& 0x80 = 0 ∧ (t.cpu.a ^^^ r) &&& 0x80 ≠ 0))).setA r).setNZ r)

/-- SBC: A takes A - m - 1 + C modulo 256; C, V, N and Z by the rule; SBC of m is ADC of its complement (42 R221).
Rests on the choices of log entries 15 and 20. -/
def Obligations.SbcSubtractsWithBorrow : Prop :=
  HasForms .SBC [(0xE9, .immediate), (0xE5, .zeroPage), (0xF5, .zeroPageX), (0xED, .absolute),
    (0xFD, .absoluteX), (0xF9, .absoluteY), (0xE1, .preIndexedIndirect), (0xF1, .postIndexedIndirect)] ∧
  ReadsThen .SBC (fun m t =>
    let c : Int := if t.flag .C then 1 else 0
    let diff : Int := t.cpu.a.toNat - m.toNat - 1 + c
    let r := BitVec.ofInt 8 diff
    (((t.setFlag .C (decide (0 ≤ diff))).setFlag .V
      (decide ((t.cpu.a ^^^ m) &&& 0x80 ≠ 0 ∧ (t.cpu.a ^^^ r) &&& 0x80 ≠ 0))).setA r).setNZ r) ∧
  (∀ (m : Byte) (s : State), exec (.sbcImmediate m) s = exec (.adcImmediate (m ^^^ 0xFF)) s) ∧
  ∀ (m : Byte) (s : State), ∃ t u, exec (.sbcImmediate m) (s.setFlag .C true) = .next t ∧
    exec (.adcImmediate (-m)) (s.setFlag .C false) = .next u ∧ t.cpu.a = u.cpu.a ∧
    (t.flag .C = u.flag .C ↔ m ≠ 0)

/-- V after ADC and SBC says that the signed result does not fit a byte; C is the unsigned carry of ADC and not the
borrow of SBC (42 R220, 42 R221). Rests on the choices of log entry 20. -/
def Obligations.OverflowIsSignedOverflow : Prop :=
  ∀ (m : Byte) (s : State), ∃ t u, exec (.adcImmediate m) s = .next t ∧ exec (.sbcImmediate m) s = .next u ∧
    (t.flag .V = true ↔ ¬ (-128 ≤ s.cpu.a.toInt + m.toInt + (s.flag .C).toNat ∧
      s.cpu.a.toInt + m.toInt + (s.flag .C).toNat ≤ 127)) ∧
    (t.flag .V = false → t.cpu.a.toInt = s.cpu.a.toInt + m.toInt + (s.flag .C).toNat) ∧
    t.cpu.a.toNat + 0x100 * (t.flag .C).toNat = s.cpu.a.toNat + m.toNat + (s.flag .C).toNat ∧
    (u.flag .V = true ↔ ¬ (-128 ≤ s.cpu.a.toInt - m.toInt - 1 + (s.flag .C).toNat ∧
      s.cpu.a.toInt - m.toInt - 1 + (s.flag .C).toNat ≤ 127)) ∧
    (u.flag .V = false → u.cpu.a.toInt = s.cpu.a.toInt - m.toInt - 1 + (s.flag .C).toNat) ∧
    (u.flag .C = true ↔ 0 ≤ (s.cpu.a.toNat : Int) - m.toNat - 1 + (s.flag .C).toNat) ∧
    (u.cpu.a.toNat : Int) = (s.cpu.a.toNat : Int) - m.toNat - 1 + (s.flag .C).toNat + 0x100 * (!u.flag .C).toNat

/-- No instruction but those that store, load, set or clear P.D depends on it (42 R232, 10 R29). Rests on the
choices of log entry 20. -/
def Obligations.DecimalFlagIsInert : Prop :=
  ∀ (i : Instr) (s : State) (d : Bool), i.row.name ∉ [Mnemonic.PHP, .BRK, .PLP, .RTI, .CLD, .SED] →
    exec i (s.setFlag .D d) = match exec i s with
      | .next t => .next (t.setFlag .D d)
      | .fault f => .fault f
      | .refused r => .refused r

/-- CMP, CPX and CPY subtract without storing: C from the sign, N and Z from the low 8 bits (42 R222, 42 R223, 42
R224). Rests on the choices of log entries 15 and 20. -/
def Obligations.ComparesSetCNZ : Prop :=
  HasForms .CMP [(0xC9, .immediate), (0xC5, .zeroPage), (0xD5, .zeroPageX), (0xCD, .absolute),
    (0xDD, .absoluteX), (0xD9, .absoluteY), (0xC1, .preIndexedIndirect), (0xD1, .postIndexedIndirect)] ∧
  HasForms .CPX [(0xE0, .immediate), (0xE4, .zeroPage), (0xEC, .absolute)] ∧
  HasForms .CPY [(0xC0, .immediate), (0xC4, .zeroPage), (0xCC, .absolute)] ∧
  ReadsThen .CMP (fun m t =>
    let diff : Int := t.cpu.a.toNat - m.toNat
    (t.setFlag .C (decide (0 ≤ diff))).setNZ (BitVec.ofInt 8 diff)) ∧
  ReadsThen .CPX (fun m t =>
    let diff : Int := t.cpu.x.toNat - m.toNat
    (t.setFlag .C (decide (0 ≤ diff))).setNZ (BitVec.ofInt 8 diff)) ∧
  ReadsThen .CPY (fun m t =>
    let diff : Int := t.cpu.y.toNat - m.toNat
    (t.setFlag .C (decide (0 ≤ diff))).setNZ (BitVec.ofInt 8 diff))

/-- INC and DEC read a byte once, write it back one higher or lower modulo 256, and set N and Z from it (42 R225, 42
R226). Rests on the choices of log entries 15 and 20. -/
def Obligations.IncDecMemory : Prop :=
  HasForms .INC [(0xE6, .zeroPage), (0xF6, .zeroPageX), (0xEE, .absolute), (0xFE, .absoluteX)] ∧
  HasForms .DEC [(0xC6, .zeroPage), (0xD6, .zeroPageX), (0xCE, .absolute), (0xDE, .absoluteX)] ∧
  ModifiesMemory .INC (fun m _ => m + 1) (fun m w => w.setNZ (m + 1)) ∧
  ModifiesMemory .DEC (fun m _ => m - 1) (fun m w => w.setNZ (m - 1))

/-- INX, INY, DEX and DEY step X or Y by one modulo 256 and set N and Z from it (42 R227, 42 R228, 42 R229, 42
R230). Rests on the choices of log entry 15. -/
def Obligations.IncDecRegisters : Prop :=
  HasForms .INX [(0xE8, .implied)] ∧
  HasForms .INY [(0xC8, .implied)] ∧
  HasForms .DEX [(0xCA, .implied)] ∧
  HasForms .DEY [(0x88, .implied)] ∧
  ∀ s : State,
    (∃ r, r.toNat = (s.cpu.x.toNat + 1) % 0x100 ∧ exec .inx s = .next ((s.setX r).setNZ r)) ∧
    (∃ r, r.toNat = (s.cpu.y.toNat + 1) % 0x100 ∧ exec .iny s = .next ((s.setY r).setNZ r)) ∧
    (∃ r, r.toNat = (s.cpu.x.toNat + 0xFF) % 0x100 ∧ exec .dex s = .next ((s.setX r).setNZ r)) ∧
    ∃ r, r.toNat = (s.cpu.y.toNat + 0xFF) % 0x100 ∧ exec .dey s = .next ((s.setY r).setNZ r)

/-- AND, ORA and EOR combine A with the operand byte and set N and Z from the new A (43 R245, 43 R246, 43 R247).
Rests on the choices of log entries 15 and 17. -/
def Obligations.LogicalOperationsOnA : Prop :=
  HasForms .AND [(0x29, .immediate), (0x25, .zeroPage), (0x35, .zeroPageX), (0x2D, .absolute),
    (0x3D, .absoluteX), (0x39, .absoluteY), (0x21, .preIndexedIndirect), (0x31, .postIndexedIndirect)] ∧
  HasForms .ORA [(0x09, .immediate), (0x05, .zeroPage), (0x15, .zeroPageX), (0x0D, .absolute),
    (0x1D, .absoluteX), (0x19, .absoluteY), (0x01, .preIndexedIndirect), (0x11, .postIndexedIndirect)] ∧
  HasForms .EOR [(0x49, .immediate), (0x45, .zeroPage), (0x55, .zeroPageX), (0x4D, .absolute),
    (0x5D, .absoluteX), (0x59, .absoluteY), (0x41, .preIndexedIndirect), (0x51, .postIndexedIndirect)] ∧
  ReadsThen .AND (fun m t => (t.setA (t.cpu.a &&& m)).setNZ (t.cpu.a &&& m)) ∧
  ReadsThen .ORA (fun m t => (t.setA (t.cpu.a ||| m)).setNZ (t.cpu.a ||| m)) ∧
  ReadsThen .EOR (fun m t => (t.setA (t.cpu.a ^^^ m)).setNZ (t.cpu.a ^^^ m))

/-- BIT: Z from A and the operand byte together, V and N from bits 6 and 7 of the operand byte, A kept (43 R248).
Rests on the choices of log entry 15. -/
def Obligations.BitTestsMemory : Prop :=
  HasForms .BIT [(0x24, .zeroPage), (0x2C, .absolute)] ∧
  ReadsThen .BIT (fun m t =>
    ((t.setFlag .Z (decide (t.cpu.a &&& m = 0))).setFlag .V (m.getLsbD 6)).setFlag .N (m.getLsbD 7))

/-- ASL, LSR, ROL and ROR, on A and on memory: the bit shifted out goes to C, the old carry into the vacated bit of
a rotate (43 R249, 43 R250, 43 R251, 43 R252). Rests on the choices of log entries 15 and 17. -/
def Obligations.ShiftsAndRotates : Prop :=
  HasForms .ASL [(0x0A, .accumulator), (0x06, .zeroPage), (0x16, .zeroPageX),
    (0x0E, .absolute), (0x1E, .absoluteX)] ∧
  HasForms .LSR [(0x4A, .accumulator), (0x46, .zeroPage), (0x56, .zeroPageX),
    (0x4E, .absolute), (0x5E, .absoluteX)] ∧
  HasForms .ROL [(0x2A, .accumulator), (0x26, .zeroPage), (0x36, .zeroPageX),
    (0x2E, .absolute), (0x3E, .absoluteX)] ∧
  HasForms .ROR [(0x6A, .accumulator), (0x66, .zeroPage), (0x76, .zeroPageX),
    (0x6E, .absolute), (0x7E, .absoluteX)] ∧
  ModifiesMemory .ASL (fun m _ => m <<< 1)
    (fun m w => (w.setFlag .C (m.getLsbD 7)).setNZ (m <<< 1)) ∧
  ModifiesMemory .LSR (fun m _ => m >>> 1)
    (fun m w => (w.setFlag .C (m.getLsbD 0)).setNZ (m >>> 1)) ∧
  ModifiesMemory .ROL (fun m c => (m <<< 1) ||| (if c then 0x01 else 0x00))
    (fun m w => (w.setFlag .C (m.getLsbD 7)).setNZ ((m <<< 1) ||| (if w.flag .C then 0x01 else 0x00))) ∧
  ModifiesMemory .ROR (fun m c => (m >>> 1) ||| (if c then 0x80 else 0x00))
    (fun m w => (w.setFlag .C (m.getLsbD 0)).setNZ ((m >>> 1) ||| (if w.flag .C then 0x80 else 0x00))) ∧
  ∀ s : State,
    (∃ r, r = s.cpu.a <<< 1 ∧
      exec .aslAccumulator s = .next (((s.setFlag .C (s.cpu.a.getLsbD 7)).setA r).setNZ r)) ∧
    (∃ r, r = s.cpu.a >>> 1 ∧
      exec .lsrAccumulator s = .next (((s.setFlag .C (s.cpu.a.getLsbD 0)).setA r).setNZ r)) ∧
    (∃ r, r = (s.cpu.a <<< 1) ||| (if s.flag .C then 0x01 else 0x00) ∧
      exec .rolAccumulator s = .next (((s.setFlag .C (s.cpu.a.getLsbD 7)).setA r).setNZ r)) ∧
    (∃ r, r = (s.cpu.a >>> 1) ||| (if s.flag .C then 0x80 else 0x00) ∧
      exec .rorAccumulator s = .next (((s.setFlag .C (s.cpu.a.getLsbD 0)).setA r).setNZ r))

/-- Each branch moves PC by its displacement when its flag holds, and does nothing when it does not (44 R270, 44
R271, 44 R272, 44 R273, 44 R274, 44 R275, 44 R276, 44 R277, 44 R278). Rests on the choices of log entries 15 and
17. -/
def Obligations.BranchesTestOneFlag : Prop :=
  HasForms .BCC [(0x90, .relative)] ∧
  HasForms .BCS [(0xB0, .relative)] ∧
  HasForms .BEQ [(0xF0, .relative)] ∧
  HasForms .BNE [(0xD0, .relative)] ∧
  HasForms .BMI [(0x30, .relative)] ∧
  HasForms .BPL [(0x10, .relative)] ∧
  HasForms .BVC [(0x50, .relative)] ∧
  HasForms .BVS [(0x70, .relative)] ∧
  ∀ (s : State) (disp : Int),
    exec (.bcc disp) s = .next (if !s.flag .C then s.setPc (s.cpu.pc + BitVec.ofInt 16 disp) else s) ∧
    exec (.bcs disp) s = .next (if s.flag .C then s.setPc (s.cpu.pc + BitVec.ofInt 16 disp) else s) ∧
    exec (.beq disp) s = .next (if s.flag .Z then s.setPc (s.cpu.pc + BitVec.ofInt 16 disp) else s) ∧
    exec (.bne disp) s = .next (if !s.flag .Z then s.setPc (s.cpu.pc + BitVec.ofInt 16 disp) else s) ∧
    exec (.bmi disp) s = .next (if s.flag .N then s.setPc (s.cpu.pc + BitVec.ofInt 16 disp) else s) ∧
    exec (.bpl disp) s = .next (if !s.flag .N then s.setPc (s.cpu.pc + BitVec.ofInt 16 disp) else s) ∧
    exec (.bvc disp) s = .next (if !s.flag .V then s.setPc (s.cpu.pc + BitVec.ofInt 16 disp) else s) ∧
    exec (.bvs disp) s = .next (if s.flag .V then s.setPc (s.cpu.pc + BitVec.ofInt 16 disp) else s)

/-- JMP sets PC to its address, or to the word its pointer holds, and changes nothing else (44 R279). Rests on the
choices of log entries 13, 15 and 17. -/
def Obligations.JumpSetsPc : Prop :=
  HasForms .JMP [(0x4C, .absolute), (0x6C, .indirectAbsolute)] ∧
  (∀ (s : State) (a : Word), exec (.jmpAbsolute a) s = .next (s.setPc a)) ∧
  (∀ (s t : State) (p a : Word), resolve (.indirectAbsolute p) s = .ok (.address a) t →
    exec (.jmpIndirectAbsolute p) s = .next (t.setPc a) ∧ ReadEffects s t) ∧
  ∀ (s : State) (p : Word), Connected s → ∃ a t, resolve (.indirectAbsolute p) s = .ok (.address a) t ∧
    exec (.jmpIndirectAbsolute p) s = .next (t.setPc a)

/-- JSR pushes the address of its last byte, high byte first, and jumps; RTS pops a word and goes on one past it;
RTS undoes JSR (44 R280, 44 R281). Rests on the choices of log entries 15 and 17. -/
def Obligations.SubroutineCallAndReturn : Prop :=
  HasForms .JSR [(0x20, .absolute)] ∧
  HasForms .RTS [(0x60, .implied)] ∧
  (∀ (s : State) (a : Word), 0x0102 ≤ s.cpu.sp.toNat ∧ s.cpu.sp.toNat ≤ 0x01FF →
    ∃ m, exec (.jsr a) s = .next { s with wram := m, cpu := { s.cpu with pc := a, sp := s.cpu.sp - 2 } } ∧
      StoredBytes s.wram m [(s.cpu.sp.toNat, highByte (s.cpu.pc - 1)), (s.cpu.sp.toNat - 1, lowByte (s.cpu.pc - 1))]) ∧
  (∀ s : State, 0x0100 ≤ s.cpu.sp.toNat ∧ s.cpu.sp.toNat ≤ 0x01FD →
    exec .rts s = .next { s with
      cpu := { s.cpu with pc := wramWord s (s.cpu.sp.toNat + 1) + 1, sp := s.cpu.sp + 2 } }) ∧
  ∀ (s : State) (a : Word), StackInPage s →
    (s.cpu.sp.toNat ≤ 0x0101 → exec (.jsr a) s = .fault (.stackPointerOverflow 0x00FF)) ∧
    (0x01FE ≤ s.cpu.sp.toNat → exec .rts s = .fault (.stackPointerUnderflow 0x0200)) ∧
    (0x0102 ≤ s.cpu.sp.toNat → ∃ t, exec (.jsr a) s = .next t ∧ exec .rts t = .next { s with wram := t.wram })

/-- PHA and PHP push one byte, PLA and PLP pull one, TSX and TXS move SP, each with its flags and nothing else (45
R295, 45 R296, 45 R297, 45 R298, 41 R201, 41 R202, 10 R34, 10 R35). Rests on the choices of log entries 15, 17
and 20. -/
def Obligations.StackByteInstructions : Prop :=
  HasForms .PHA [(0x48, .implied)] ∧
  HasForms .PHP [(0x08, .implied)] ∧
  HasForms .PLA [(0x68, .implied)] ∧
  HasForms .PLP [(0x28, .implied)] ∧
  HasForms .TSX [(0xBA, .implied)] ∧
  HasForms .TXS [(0x9A, .implied)] ∧
  (∀ s : State, 0x0101 ≤ s.cpu.sp.toNat ∧ s.cpu.sp.toNat ≤ 0x01FF →
    (∃ m, exec .pha s = .next { s with wram := m, cpu := { s.cpu with sp := s.cpu.sp - 1 } } ∧
      StoredBytes s.wram m [(s.cpu.sp.toNat, s.cpu.a)]) ∧
    ∃ m, exec .php s = .next { s with wram := m, cpu := { s.cpu with sp := s.cpu.sp - 1, p := s.cpu.p ||| 0x10 } } ∧
      StoredBytes s.wram m [(s.cpu.sp.toNat, s.cpu.p ||| 0x10)]) ∧
  (∀ s : State, 0x0100 ≤ s.cpu.sp.toNat ∧ s.cpu.sp.toNat ≤ 0x01FE →
    exec .pla s = .next (((s.setSp (s.cpu.sp + 1)).setA (byteAt s.wram (s.cpu.sp.toNat + 1))).setNZ
      (byteAt s.wram (s.cpu.sp.toNat + 1))) ∧
    exec .plp s = .next ((s.setSp (s.cpu.sp + 1)).setP (byteAt s.wram (s.cpu.sp.toNat + 1) ||| 0x20))) ∧
  ∀ s : State, exec .tsx s = .next ((s.setX (lowByte s.cpu.sp)).setNZ (lowByte s.cpu.sp)) ∧
    ∃ sp, exec .txs s = .next (s.setSp sp) ∧ sp.toNat = 0x0100 + s.cpu.x.toNat

/-- Exactly a push at 0x0100 overflows and exactly a pop at 0x01FF underflows, for every instruction and for
interrupt entry (60 R475, 60 R476, 10 R34, 10 R35). Rests on the choices of log entry 20. -/
def Obligations.StackFaultsAtThePageEnds : Prop :=
  ∀ s : State, StackInPage s →
    (∀ (i : Instr) (v : Word), exec i s = .fault (.stackPointerOverflow v) ↔ v = 0x00FF ∧
      (((i = .pha ∨ i = .php) ∧ s.cpu.sp.toNat ≤ 0x0100) ∨ ((∃ a, i = .jsr a) ∧ s.cpu.sp.toNat ≤ 0x0101) ∨
        (i = .brk ∧ s.cpu.sp.toNat ≤ 0x0102))) ∧
    (∀ (i : Instr) (v : Word), exec i s = .fault (.stackPointerUnderflow v) ↔ v = 0x0200 ∧
      (((i = .pla ∨ i = .plp) ∧ 0x01FF ≤ s.cpu.sp.toNat) ∨ (i = .rts ∧ 0x01FE ≤ s.cpu.sp.toNat) ∨
        (i = .rti ∧ 0x01FD ≤ s.cpu.sp.toNat))) ∧
    ∀ vector v : Word,
      (takeInterrupt vector s = .fault (.stackPointerOverflow v) ↔ v = 0x00FF ∧ s.cpu.sp.toNat ≤ 0x0102) ∧
      takeInterrupt vector s ≠ .fault (.stackPointerUnderflow v)

/-- CLC, SEC, CLI, SEI, CLV, CLD and SED write their one flag; NOP does nothing (45 R299, 45 R300, 45 R301, 45 R302,
45 R303, 45 R304, 45 R305, 45 R306). Rests on the choices of log entries 15 and 17. -/
def Obligations.FlagInstructionsAndNop : Prop :=
  HasForms .CLC [(0x18, .implied)] ∧
  HasForms .SEC [(0x38, .implied)] ∧
  HasForms .CLI [(0x58, .implied)] ∧
  HasForms .SEI [(0x78, .implied)] ∧
  HasForms .CLV [(0xB8, .implied)] ∧
  HasForms .CLD [(0xD8, .implied)] ∧
  HasForms .SED [(0xF8, .implied)] ∧
  HasForms .NOP [(0xEA, .implied)] ∧
  ∀ s : State, exec .clc s = .next (s.setFlag .C false) ∧
    exec .sec s = .next (s.setFlag .C true) ∧
    exec .cli s = .next (s.setFlag .I false) ∧
    exec .sei s = .next (s.setFlag .I true) ∧
    exec .clv s = .next (s.setFlag .V false) ∧
    exec .cld s = .next (s.setFlag .D false) ∧
    exec .sed s = .next (s.setFlag .D true) ∧
    exec .nop s = .next s

/-- BRK pushes the address two past itself and P with bit 4 set, sets I, and enters the vector 0xFFFE only if I was
clear (45 R307, 60 R487). Rests on the choices of log entries 15 and 20. -/
def Obligations.BrkBuildsTheFrame : Prop :=
  HasForms .BRK [(0x00, .implied)] ∧
  ∀ s : State, 0x0103 ≤ s.cpu.sp.toNat ∧ s.cpu.sp.toNat ≤ 0x01FF →
    (∀ target, (s.flag .I = true ∧ target = s.cpu.pc + 1) ∨
        (s.flag .I = false ∧ ∃ rom, s.config.prgRom = some rom ∧ target = romWord rom 0xFFFE) →
      ∃ m, exec .brk s = .next { s with
          wram := m
          cpu := { s.cpu with pc := target, sp := s.cpu.sp - 3, p := s.cpu.p ||| 0x14 } } ∧
        StoredBytes s.wram m [(s.cpu.sp.toNat, highByte (s.cpu.pc + 1)),
          (s.cpu.sp.toNat - 1, lowByte (s.cpu.pc + 1)), (s.cpu.sp.toNat - 2, s.cpu.p ||| 0x10)]) ∧
    (s.flag .I = false → s.config.prgRom = none → exec .brk s = .fault (.resourceNotConnected .programRom))

/-- RTI pops P with bit 5 forced to 1, then PC low byte first, and goes on there without an increment (45 R308).
Rests on the choices of log entries 15 and 17. -/
def Obligations.RtiRestoresTheFrame : Prop :=
  HasForms .RTI [(0x40, .implied)] ∧
  ∀ s : State, StackInPage s →
    (s.cpu.sp.toNat ≤ 0x01FC → exec .rti s = .next { s with
      cpu := { s.cpu with
        pc := wramWord s (s.cpu.sp.toNat + 2)
        sp := s.cpu.sp + 3
        p := byteAt s.wram (s.cpu.sp.toNat + 1) ||| 0x20 } }) ∧
    (0x01FD ≤ s.cpu.sp.toNat → exec .rti s = .fault (.stackPointerUnderflow 0x0200))

/-- LAX loads A and X with one read and sets N and Z; SAX stores A and X together and touches no flag (46 R325, 46
R326). Rests on the choices of log entries 15 and 16. -/
def Obligations.LaxAndSax : Prop :=
  HasForms .LAX [(0xA7, .zeroPage), (0xB7, .zeroPageY), (0xAF, .absolute), (0xBF, .absoluteY),
    (0xA3, .preIndexedIndirect), (0xB3, .postIndexedIndirect)] ∧
  HasForms .SAX [(0x87, .zeroPage), (0x97, .zeroPageY), (0x8F, .absolute), (0x83, .preIndexedIndirect)] ∧
  ReadsThen .LAX (fun m t => ((t.setA m).setX m).setNZ m) ∧
  StoresByte .SAX (fun s => s.cpu.a &&& s.cpu.x)

/-- DCP decrements memory and compares A with the result; ISB increments memory and subtracts the result from A (46
R327, 46 R328). Rests on the choices of log entries 15, 16 and 20. -/
def Obligations.DcpAndIsb : Prop :=
  HasForms .DCP [(0xC7, .zeroPage), (0xD7, .zeroPageX), (0xCF, .absolute), (0xDF, .absoluteX),
    (0xDB, .absoluteY), (0xC3, .preIndexedIndirect), (0xD3, .postIndexedIndirect)] ∧
  HasForms .ISB [(0xE7, .zeroPage), (0xF7, .zeroPageX), (0xEF, .absolute), (0xFF, .absoluteX),
    (0xFB, .absoluteY), (0xE3, .preIndexedIndirect), (0xF3, .postIndexedIndirect)] ∧
  ModifiesMemory .DCP (fun m _ => m - 1) (fun m w =>
    let diff : Int := w.cpu.a.toNat - (m - 1).toNat
    (w.setFlag .C (decide (0 ≤ diff))).setNZ (BitVec.ofInt 8 diff)) ∧
  ModifiesMemory .ISB (fun m _ => m + 1) (fun m w =>
    let c : Int := if w.flag .C then 1 else 0
    let diff : Int := w.cpu.a.toNat - (m + 1).toNat - 1 + c
    let r := BitVec.ofInt 8 diff
    (((w.setFlag .C (decide (0 ≤ diff))).setFlag .V
      (decide ((w.cpu.a ^^^ (m + 1)) &&& 0x80 ≠ 0 ∧ (w.cpu.a ^^^ r) &&& 0x80 ≠ 0))).setA r).setNZ r)

/-- SLO, SRE, RLA and RRA shift or rotate memory, then or, exclusive-or, and or add the result into A (46 R329, 46
R330, 46 R331, 46 R332). Rests on the choices of log entries 15, 16 and 20. -/
def Obligations.SloSreRlaAndRra : Prop :=
  HasForms .SLO [(0x07, .zeroPage), (0x17, .zeroPageX), (0x0F, .absolute), (0x1F, .absoluteX),
    (0x1B, .absoluteY), (0x03, .preIndexedIndirect), (0x13, .postIndexedIndirect)] ∧
  HasForms .SRE [(0x47, .zeroPage), (0x57, .zeroPageX), (0x4F, .absolute), (0x5F, .absoluteX),
    (0x5B, .absoluteY), (0x43, .preIndexedIndirect), (0x53, .postIndexedIndirect)] ∧
  HasForms .RLA [(0x27, .zeroPage), (0x37, .zeroPageX), (0x2F, .absolute), (0x3F, .absoluteX),
    (0x3B, .absoluteY), (0x23, .preIndexedIndirect), (0x33, .postIndexedIndirect)] ∧
  HasForms .RRA [(0x67, .zeroPage), (0x77, .zeroPageX), (0x6F, .absolute), (0x7F, .absoluteX),
    (0x7B, .absoluteY), (0x63, .preIndexedIndirect), (0x73, .postIndexedIndirect)] ∧
  ModifiesMemory .SLO (fun m _ => m <<< 1) (fun m w =>
    let a := w.cpu.a ||| (m <<< 1)
    ((w.setFlag .C (m.getLsbD 7)).setA a).setNZ a) ∧
  ModifiesMemory .SRE (fun m _ => m >>> 1) (fun m w =>
    let a := w.cpu.a ^^^ (m >>> 1)
    ((w.setFlag .C (m.getLsbD 0)).setA a).setNZ a) ∧
  ModifiesMemory .RLA (fun m c => (m <<< 1) ||| (if c then 0x01 else 0x00)) (fun m w =>
    let a := w.cpu.a &&& ((m <<< 1) ||| (if w.flag .C then 0x01 else 0x00))
    ((w.setFlag .C (m.getLsbD 7)).setA a).setNZ a) ∧
  ModifiesMemory .RRA (fun m c => (m >>> 1) ||| (if c then 0x80 else 0x00)) (fun m w =>
    let b := (m >>> 1) ||| (if w.flag .C then 0x80 else 0x00)
    let sum := w.cpu.a.toNat + b.toNat + (if m.getLsbD 0 then 1 else 0)
    let r := BitVec.ofNat 8 sum
    (((w.setFlag .C (decide (0xFF < sum))).setFlag .V
      (decide ((w.cpu.a ^^^ b) &&& 0x80 = 0 ∧ (w.cpu.a ^^^ r) &&& 0x80 ≠ 0))).setA r).setNZ r)

/-- An access faults only because a resource is absent, an instruction only for that or the stack; none is refused
(41 R190, 60 R473, 60 R474, 60 R475, 60 R476, 20 R91, 20 R92, 20 R102, 20 R103). Rests on the choices of log
entries 20 and 22. -/
def Obligations.InstructionFaultsHaveACause : Prop :=
  (∀ (i : Instr) (s : State), (∀ r, exec i s ≠ .refused r) ∧ ∀ f, exec i s = .fault f →
    (f = .resourceNotConnected .programRom ∧ s.config.prgRom = none) ∨
    (f = .resourceNotConnected .characterMemory ∧ s.chr = none) ∨
    (∃ v, f = .stackPointerOverflow v ∧ i.row.name ∈ [Mnemonic.PHA, .PHP, .JSR, .BRK]) ∨
    (∃ v, f = .stackPointerUnderflow v ∧ i.row.name ∈ [Mnemonic.PLA, .PLP, .RTS, .RTI])) ∧
  (∀ (a : Word) (v : Byte) (s : State) (f : Fault), memRead a s = .fault f ∨ memWrite a v s = .fault f →
    (f = .resourceNotConnected .programRom ∧ s.config.prgRom = none) ∨
    (f = .resourceNotConnected .characterMemory ∧ s.chr = none)) ∧
  (∀ (a : Word) (v : Byte) (s : State) (f : Fault), ppuBusRead a s = .fault f ∨ ppuBusWrite a v s = .fault f →
    f = .resourceNotConnected .characterMemory ∧ s.chr = none) ∧
  (∀ (a n : Nat) (s : State) (v : Byte), (busRead a s = .fault (.invalidBusAddress n) ↔ 0x10000 ≤ a ∧ n = a) ∧
    (busWrite a v s = .fault (.invalidBusAddress n) ↔ 0x10000 ≤ a ∧ n = a)) ∧
  ∀ (s : State) (n : Nat), s.fault = none → step s ≠ .fault (.invalidBusAddress n)

/-- With program ROM and character memory attached no step finds a resource absent, and both stay attached (60 R474,
70 R534). -/
def Obligations.AttachedMachineNeverMissesAResource : Prop :=
  ∀ s : State, Connected s → s.fault = none →
    (∀ t, step s = .next t → Connected t) ∧
    (∀ f, step s = .fault f → (∃ b, f = .invalidOpcode b) ∨ (∃ v, f = .stackPointerOverflow v) ∨
      (∃ v, f = .stackPointerUnderflow v) ∨ ∃ p, f = .dmaSourceOutOfRange p) ∧
    ∀ r, step s ≠ .refused r

/-- A CPU-bus read by region: working RAM, PPU port, keypad bit, 0x00, program ROM or the fault that it is absent
(20 R81, 20 R83, 20 R84, 20 R85, 20 R86, 20 R87, 20 R88, 20 R89, 20 R91). Rests on the choices of log entry 20. -/
def Obligations.CpuBusReadMap : Prop :=
  ∀ (a : Word) (s : State),
    (a.toNat < 0x2000 → memRead a s = .ok (byteAt s.wram (a.toNat % 0x800)) s) ∧
    (0x2000 ≤ a.toNat ∧ a.toNat < 0x4000 → memRead a s = ppuPortRead (a &&& 7).toNat s) ∧
    (a = 0x4016 → memRead a s = .ok ((s.keypad1.latched >>> s.keypad1.cursor) &&& 1)
      { s with keypad1 := { s.keypad1 with cursor := (s.keypad1.cursor + 1) % 8 } }) ∧
    (a = 0x4017 → memRead a s = .ok ((s.keypad2.latched >>> s.keypad2.cursor) &&& 1)
      { s with keypad2 := { s.keypad2 with cursor := (s.keypad2.cursor + 1) % 8 } }) ∧
    (0x4000 ≤ a.toNat ∧ a.toNat < 0x8000 ∧ a ≠ 0x4016 ∧ a ≠ 0x4017 → memRead a s = .ok 0x00 s) ∧
    (0x8000 ≤ a.toNat → s.config.prgRom = none → memRead a s = .fault (.resourceNotConnected .programRom)) ∧
    (∀ m, 0x8000 ≤ a.toNat → s.config.prgRom = some ⟨.kib32, m⟩ →
      memRead a s = .ok (byteAt m (a.toNat - 0x8000)) s) ∧
    ∀ m, 0x8000 ≤ a.toNat → s.config.prgRom = some ⟨.kib16, m⟩ →
      memRead a s = .ok (byteAt m ((a.toNat - 0x8000) % 0x4000)) s

/-- A CPU-bus write by region: working RAM, PPU port, DMA latch, keypad, nothing, or the fault that ROM is absent
(20 R81, 20 R82, 20 R83, 20 R84, 20 R85, 20 R86, 20 R87, 20 R88, 20 R90, 20 R91). Rests on the choices of log
entry 20. -/
def Obligations.CpuBusWriteMap : Prop :=
  ∀ (a : Word) (v : Byte) (s : State),
    (a.toNat < 0x2000 → memWrite a v s = .ok () { s with wram := setByte s.wram (a.toNat % 0x800) v }) ∧
    (0x2000 ≤ a.toNat ∧ a.toNat < 0x4000 → memWrite a v s = ppuPortWrite (a &&& 7).toNat v s) ∧
    (a = 0x4014 → memWrite a v s = .ok () { s with dma := { pending := true, page := v } } ∧
      memRead a s = .ok 0x00 s) ∧
    (a = 0x4016 → memWrite a v s = .ok () { s with keypad1 := keypadWrite 1 v s.keypad1 }) ∧
    (a = 0x4017 → memWrite a v s = .ok () { s with keypad2 := keypadWrite 2 v s.keypad2 }) ∧
    (0x4000 ≤ a.toNat ∧ a.toNat < 0x8000 ∧ a ≠ 0x4014 ∧ a ≠ 0x4016 ∧ a ≠ 0x4017 → memWrite a v s = .ok () s) ∧
    (0x8000 ≤ a.toNat → s.config.prgRom.isSome = true → memWrite a v s = .ok () s) ∧
    (0x8000 ≤ a.toNat → s.config.prgRom = none → memWrite a v s = .fault (.resourceNotConnected .programRom))

/-- A read away from PPU ports 2 and 7 and the keypad ports changes nothing; those change what the rule lists (20
R109). -/
def Obligations.OnlyListedReadsHaveASideEffect : Prop :=
  (∀ (a : Word) (v : Byte) (s t : State), memRead a s = .ok v t →
    (readHasEffect a = false → t = s) ∧
    (0x2000 ≤ a.toNat ∧ a.toNat < 0x4000 ∧ a.toNat % 8 = 2 → t = { s with
      ppu := { s.ppu with status := s.ppu.status &&& 0x7F, writeToggle := false } }) ∧
    (0x2000 ≤ a.toNat ∧ a.toNat < 0x4000 ∧ a.toNat % 8 = 7 → t = { s with
      ppu := { s.ppu with readBuffer := t.ppu.readBuffer, videoRamAddress := t.ppu.videoRamAddress } }) ∧
    (a = 0x4016 → t = { s with keypad1 := { s.keypad1 with cursor := t.keypad1.cursor } }) ∧
    (a = 0x4017 → t = { s with keypad2 := { s.keypad2 with cursor := t.keypad2.cursor } })) ∧
  ∀ (b : Byte) (s t : State), fetch s = .ok b t ↔ ∃ u, memRead s.cpu.pc s = .ok b u ∧ t = u.setPc (s.cpu.pc + 1)

/-- A byte written on the PPU bus is what every address of the same cell reads back, and no other cell changes (20
R95, 20 R96, 20 R98, 20 R99, 20 R100, 20 R101, 20 R103). Rests on the choices of log entries 6, 18 and 20. -/
def Obligations.PpuBusIsAFixedDecoding : Prop :=
  (∀ (a b : Word) (v : Byte) (s : State), s.chr.isSome = true → ∃ t w, ppuBusWrite a v s = .ok () t ∧
    ppuBusRead b s = .ok w s ∧
    ppuBusRead b t = .ok (if ppuCell s.config a = ppuCell s.config b then v else w) t ∧
    t = { s with chr := t.chr, vram := t.vram, palette := t.palette }) ∧
  (∀ (a : Word) (v : Byte) (s : State), s.chr = none →
    (ppuBusRead a s = .fault (.resourceNotConnected .characterMemory) ↔ a.toNat % 0x4000 < 0x2000) ∧
    (ppuBusWrite a v s = .fault (.resourceNotConnected .characterMemory) ↔ a.toNat % 0x4000 < 0x2000)) ∧
  ∀ (c : Config) (a : Word), ppuCell c (a + 0x4000) = ppuCell c a ∧
    (0x3000 ≤ a.toNat ∧ a.toNat < 0x3F00 → ppuCell c a = ppuCell c (a - 0x1000)) ∧
    (0x3F00 ≤ a.toNat ∧ a.toNat < 0x3FE0 → ppuCell c (a + 0x20) = ppuCell c a) ∧
    ppuCell c 0x3F10 = ppuCell c 0x3F00 ∧ ppuCell c 0x3F14 = ppuCell c 0x3F04 ∧
    ppuCell c 0x3F18 = ppuCell c 0x3F08 ∧ ppuCell c 0x3F1C = ppuCell c 0x3F0C ∧ ppuCell c 0x3F04 ≠ ppuCell c 0x3F00

/-- What each PPU port reads: status clears vblank and the toggle, sprite data keeps its address, video data is
buffered (50 R370, 50 R374, 50 R378, 50 R382, 50 R383, 50 R384). Rests on the choices of log entries 18 and 19. -/
def Obligations.PpuPortReads : Prop :=
  ∀ (a : Word) (s : State), 0x2000 ≤ a.toNat → a.toNat < 0x4000 →
    (a.toNat % 8 = 2 → memRead a s = .ok (s.ppu.status &&& 0xE0)
      { s with ppu := { s.ppu with status := s.ppu.status &&& 0x7F, writeToggle := false } }) ∧
    (a.toNat % 8 = 4 → memRead a s = .ok (byteAt s.ppu.spriteRam s.ppu.spriteRamAddress.toNat) s) ∧
    (∀ v, a.toNat % 8 = 7 → ppuBusRead s.ppu.videoRamAddress s = .ok v s →
      memRead a s =
        if 0x3F00 ≤ s.ppu.videoRamAddress.toNat % 0x4000 then
          .ok v { s with ppu := { s.ppu with
            videoRamAddress := s.ppu.videoRamAddress + (if s.ppu.control.getLsbD 2 then 32 else 1) } }
        else
          .ok s.ppu.readBuffer { s with ppu := { s.ppu with
            readBuffer := v
            videoRamAddress := s.ppu.videoRamAddress + (if s.ppu.control.getLsbD 2 then 32 else 1) } }) ∧
    (a.toNat % 8 = 7 → s.ppu.videoRamAddress.toNat % 0x4000 < 0x2000 → s.chr = none →
      memRead a s = .fault (.resourceNotConnected .characterMemory)) ∧
    (a.toNat % 8 ∈ [0, 1, 3, 5, 6] → memRead a s = .ok 0x00 s)

/-- What a write of each PPU port changes, and that nothing else does (50 R371, 50 R372, 50 R373, 50 R375, 50 R376,
50 R377, 50 R379, 50 R380, 50 R381, 50 R383). Rests on the choices of log entries 18 and 19. -/
def Obligations.PpuPortWrites : Prop :=
  ∀ (a : Word) (v : Byte) (s : State), 0x2000 ≤ a.toNat → a.toNat < 0x4000 →
    (a.toNat % 8 = 0 → memWrite a v s = .ok () { s with ppu := { s.ppu with control := v } }) ∧
    (a.toNat % 8 = 1 → memWrite a v s = .ok () { s with ppu := { s.ppu with mask := v } }) ∧
    (a.toNat % 8 = 2 → memWrite a v s = .ok () s) ∧
    (a.toNat % 8 = 3 → memWrite a v s = .ok () { s with ppu := { s.ppu with spriteRamAddress := v } }) ∧
    (a.toNat % 8 = 4 → ∃ m, memWrite a v s = .ok () { s with ppu := { s.ppu with
        spriteRam := m, spriteRamAddress := s.ppu.spriteRamAddress + 1 } } ∧
      StoredBytes s.ppu.spriteRam m [(s.ppu.spriteRamAddress.toNat, v)]) ∧
    (a.toNat % 8 = 5 → memWrite a v s = .ok () { s with ppu := { s.ppu with
      scrollX := if s.ppu.writeToggle then s.ppu.scrollX else v
      scrollY := if s.ppu.writeToggle then v else s.ppu.scrollY
      writeToggle := !s.ppu.writeToggle } }) ∧
    (a.toNat % 8 = 6 → memWrite a v s = .ok () { s with ppu := { s.ppu with
      videoRamAddress :=
        if s.ppu.writeToggle then wordOfBytes v (highByte s.ppu.videoRamAddress) else wordOfBytes 0x00 v
      writeToggle := !s.ppu.writeToggle } }) ∧
    (∀ t, a.toNat % 8 = 7 → ppuBusWrite s.ppu.videoRamAddress v s = .ok () t →
      memWrite a v s = .ok () { t with ppu := { s.ppu with
        videoRamAddress := s.ppu.videoRamAddress + (if s.ppu.control.getLsbD 2 then 32 else 1) } }) ∧
    (a.toNat % 8 = 7 → s.ppu.videoRamAddress.toNat % 0x4000 < 0x2000 → s.chr = none →
      memWrite a v s = .fault (.resourceNotConnected .characterMemory))

/-- The write toggle flips on every write to port 5 or 6, resets on a status read, and moves in no other access (10
R51). Rests on the choices of log entry 2. -/
def Obligations.WriteToggleIsShared : Prop :=
  (∀ (a : Word) (v : Byte) (s t : State), memWrite a v s = .ok () t → t.ppu.writeToggle =
    if 0x2000 ≤ a.toNat ∧ a.toNat < 0x4000 ∧ (a.toNat % 8 = 5 ∨ a.toNat % 8 = 6) then !s.ppu.writeToggle
    else s.ppu.writeToggle) ∧
  (∀ (a : Word) (v : Byte) (s t : State), memRead a s = .ok v t → t.ppu.writeToggle =
    if 0x2000 ≤ a.toNat ∧ a.toNat < 0x4000 ∧ a.toNat % 8 = 2 then false else s.ppu.writeToggle) ∧
  ∀ c : Config, (State.powerOn c).ppu.writeToggle = false

/-- NMI first and never masked, IRQ only while I is clear: the frame, the flags, the vector and the latch (60 R475,
60 R483, 60 R484, 60 R485, 60 R486). Rests on the choices of log entries 15 and 20. -/
def Obligations.PollingServicesAtMostOneRequest : Prop :=
  (∀ (s : State) (rom : PrgRom), s.config.prgRom = some rom → 0x0103 ≤ s.cpu.sp.toNat → s.cpu.sp.toNat ≤ 0x01FF →
    (s.int.nmi = true → ∃ m, handleInterrupts s = .ok () { s with
        int := { s.int with nmi := false }
        wram := m
        cpu := { s.cpu with
          pc := romWord rom 0xFFFA, sp := s.cpu.sp - 3, p := (s.cpu.p &&& 0xEF) ||| 0x04 } } ∧
      StoredBytes s.wram m [(s.cpu.sp.toNat, highByte s.cpu.pc), (s.cpu.sp.toNat - 1, lowByte s.cpu.pc),
        (s.cpu.sp.toNat - 2, s.cpu.p &&& 0xEF)]) ∧
    (s.int.nmi = false → s.int.irq = true → s.flag .I = false → ∃ m, handleInterrupts s = .ok () { s with
        int := { s.int with irq := false }
        wram := m
        cpu := { s.cpu with
          pc := romWord rom 0xFFFE, sp := s.cpu.sp - 3, p := (s.cpu.p &&& 0xEF) ||| 0x04 } } ∧
      StoredBytes s.wram m [(s.cpu.sp.toNat, highByte s.cpu.pc), (s.cpu.sp.toNat - 1, lowByte s.cpu.pc),
        (s.cpu.sp.toNat - 2, s.cpu.p &&& 0xEF)])) ∧
  (∀ s : State, NoInterrupt s → handleInterrupts s = .ok () s) ∧
  ∀ s : State, ¬ NoInterrupt s → StackInPage s →
    (s.cpu.sp.toNat ≤ 0x0102 → handleInterrupts s = .fault (.stackPointerOverflow 0x00FF)) ∧
    (0x0103 ≤ s.cpu.sp.toNat → s.config.prgRom = none → handleInterrupts s = .fault (.resourceNotConnected .programRom))

/-- RTI right after an interrupt entry resumes at the interrupted PC with SP and P as they were, break bit clear (60
R488, 60 R484, 60 R499). Rests on the choices of log entries 17 and 20. -/
def Obligations.EntryThenRtiResumes : Prop :=
  ∀ (s t : State) (vector : Word), 0x8000 ≤ vector.toNat → 0x0103 ≤ s.cpu.sp.toNat → s.cpu.sp.toNat ≤ 0x01FF →
    takeInterrupt vector s = .ok () t →
    exec .rti t = .next { s with wram := t.wram, cpu := { s.cpu with p := (s.cpu.p &&& 0xEF) ||| 0x20 } }

/-- CPU.reset() sets the six CPU registers, PC from 0xFFFC, and changes nothing else; after power-on it is the reset
state (70 R531, 70 R532, 70 R534, 70 R535, 10 R69). Rests on the choices of log entries 1, 2 and 3. -/
def Obligations.CpuResetSetsTheCpuRegisters : Prop :=
  (∀ (s : State) (rom : PrgRom), s.config.prgRom = some rom →
    cpuReset s = .ok () { s with cpu := ⟨0x00, 0x00, 0x00, romWord rom 0xFFFC, 0x01FD, 0x34⟩ } ∧
    (cpuReset s).bind (fun _ t => cpuReset t) = cpuReset s) ∧
  (∀ s : State, s.config.prgRom = none → cpuReset s = .fault (.resourceNotConnected .programRom)) ∧
  cpuReset (State.powerOn Config.default) = .ok () State.reset ∧
  State.reset.cpu.p = 0b00110100 ∧ State.reset.cpu.sp = 0x01FD ∧
  ∀ rom, State.reset.config.prgRom = some rom → State.reset.cpu.pc = romWord rom 0xFFFC

/-- No step changes program ROM or another parameter, and no step sets the IRQ latch without an IrqAssert before it
(10 R41, 10 R59, 20 R90, 60 R480). Rests on the choices of log entries 1 and 8. -/
def Obligations.IrqAndParametersComeFromTheHost : Prop :=
  ∀ s t : State, step s = .next t → t.config = s.config ∧ (t.int.irq = true →
    s.int.irq = true ∨ ∃ hs rest, s.schedule = hs :: rest ∧ HostAction.irqAssert ∈ hs)

/-- The DMA drain copies 256 bytes of the working RAM page into sprite RAM and clears the request; a second call
copies nothing (51 R431, 51 R432, 50 R385). Rests on the choices of log entry 20. -/
def Obligations.DmaDrainCopiesThePage : Prop :=
  (∀ s : State, s.dma.pending = true → s.dma.page.toNat < 8 → ∃ m,
    transferIfRequested s = .ok () { s with
      ppu := { s.ppu with spriteRam := m }, dma := { s.dma with pending := false } } ∧
    (∀ k, k < 0x100 → byteAt m k = byteAt s.wram (s.dma.page.toNat * 0x100 + k)) ∧
    (∀ k, 0x100 ≤ k → byteAt m k = byteAt s.ppu.spriteRam k) ∧
    (transferIfRequested s).bind (fun _ t => transferIfRequested t) = transferIfRequested s) ∧
  (∀ s : State, s.dma.pending = true → 8 ≤ s.dma.page.toNat →
    transferIfRequested s = .fault (.dmaSourceOutOfRange s.dma.page)) ∧
  ∀ s : State, s.dma.pending = false → transferIfRequested s = .ok () s

/-- A keypad write with bit 0 clear latches the host's byte; the reads after it give its bits 0 to 7 and then bit 0
again (51 R435, 51 R436, 51 R437, 20 R86). Rests on the choices of log entries 7 and 20. -/
def Obligations.KeypadShiftsOutTheLatchedByte : Prop :=
  (∀ (v : Byte) (s : State), v.getLsbD 0 = true →
    memWrite 0x4016 v s = .ok () { s with keypad1 := { s.keypad1 with capturing := true } } ∧
    memWrite 0x4017 v s = .ok () { s with keypad2 := { s.keypad2 with capturing := true } }) ∧
  (∀ (v b : Byte) (rest : List Byte) (s : State), v.getLsbD 0 = false →
    (s.keypad1.inputs = b :: rest → memWrite 0x4016 v s = .ok () { s with keypad1 :=
      { capturing := false, latched := b, cursor := 0, inputs := rest, draws := s.keypad1.draws + 1 } }) ∧
    (s.keypad2.inputs = b :: rest → memWrite 0x4017 v s = .ok () { s with keypad2 :=
      { capturing := false, latched := b, cursor := 0, inputs := rest, draws := s.keypad2.draws + 1 } })) ∧
  ∀ (n : Nat) (s : State),
    (s.keypad1.cursor = 0 → readBytes 0x4016 n s =
      .ok ((List.range n).map fun j => if s.keypad1.latched.getLsbD (j % 8) then 0x01 else 0x00)
        { s with keypad1 := { s.keypad1 with cursor := n % 8 } }) ∧
    (s.keypad2.cursor = 0 → readBytes 0x4017 n s =
      .ok ((List.range n).map fun j => if s.keypad2.latched.getLsbD (j % 8) then 0x01 else 0x00)
        { s with keypad2 := { s.keypad2 with cursor := n % 8 } })

/-- n PPU steps move n places through the frame of 89342 and touch the PPU only; an instruction of n cycles brings
3n (50 R350, 50 R351, 51 R441, 30 R147, 10 R53). Rests on the choices of log entries 4 and 19. -/
def Obligations.PpuAdvancesThreePerCycle : Prop :=
  (∀ (n : Nat) (s : State), CountersInRange s → s.chr.isSome = true → ∃ t, ppuSteps n s = .ok () t ∧
    CountersInRange t ∧ framePosition t = (framePosition s + n) % 89342 ∧ PpuEffects s t) ∧
  (∀ (s t u : State) (i : Instr), CountersInRange s → prepare s = .ok i t → step s = .next u →
    framePosition u = (framePosition s + 3 * cyclesOf s.config i) % 89342) ∧
  ∀ (c : Config) (i : Instr), c.cycleTable = [] → cyclesOf c i = i.row.cycles ∧ 2 ≤ i.row.cycles ∧ i.row.cycles ≤ 8

/-- The counter advance: within a line, at the end of a line, into vertical blank, and at the end of the frame (50
R351, 50 R352, 50 R353). Rests on the choices of log entries 10 and 19. -/
def Obligations.LineEvents : Prop :=
  (∀ s : State, s.ppu.cycle < 340 → advance s = .ok () { s with ppu := { s.ppu with cycle := s.ppu.cycle + 1 } }) ∧
  (∀ s : State, s.ppu.cycle = 340 → s.ppu.line < 261 → s.ppu.line ≠ 239 →
    advance s = .ok () { s with ppu := { s.ppu with cycle := 0, line := s.ppu.line + 1 } }) ∧
  (∀ s : State, s.ppu.cycle = 340 → s.ppu.line = 239 → advance s = .ok () { s with
    ppu := { s.ppu with cycle := 0, line := 240, status := s.ppu.status ||| 0x80 }
    int := { s.int with nmi := s.int.nmi || s.ppu.control.getLsbD 7 } }) ∧
  ∀ s t : State, s.ppu.cycle = 340 → s.ppu.line = 261 → drawSprites s = .ok () t → advance s = .ok () { t with
    ppu := { t.ppu with cycle := 0, line := 0, status := t.ppu.status &&& 0x3F }
    int := { t.int with nmi := false }
    render := { count := t.render.count + 1, frame := t.ppu.image } }

/-- What a PPU step does to the status byte and the NMI latch (50 R354, 50 R352, 50 R353, 10 R47). Rests on the
choices of log entries 18 and 19. -/
def Obligations.StatusFlagsOfAPpuStep : Prop :=
  ∀ s t : State, CountersInRange s → ppuStep s = .ok () t →
    t.ppu.status.getLsbD 6 = (decide (framePosition s ≠ 89341) && (s.ppu.status.getLsbD 6 ||
      (decide ((byteAt s.ppu.spriteRam 0).toNat = s.ppu.line) && s.ppu.mask.getLsbD 3 && s.ppu.mask.getLsbD 4))) ∧
    t.ppu.status.getLsbD 7 = (decide (framePosition s ≠ 89341) && (s.ppu.status.getLsbD 7 ||
      decide (framePosition s = 341 * 240 - 1))) ∧
    (∀ k, k < 6 → t.ppu.status.getLsbD k = s.ppu.status.getLsbD k) ∧
    t.int.nmi = (decide (framePosition s ≠ 89341) && (s.int.nmi ||
      (decide (framePosition s = 341 * 240 - 1) && s.ppu.control.getLsbD 7)))

/-- A background group writes exactly its 8 pixels, each the palette colour of its tile, attribute and pattern bits
(50 R355, 50 R356, 50 R357, 50 R358, 50 R359, 50 R360, 50 R361, 50 R362). Rests on the choices of log entries 5,
11, 18 and 19. -/
def Obligations.BackgroundGroupPixels : Prop :=
  ∀ (x y : Nat) (s : State), x < 256 → y < 240 → s.chr.isSome = true → ∃ t, drawBackgroundGroup x y s = .ok () t ∧
    t = { s with ppu := { s.ppu with image := t.ppu.image, bgOpaque := t.ppu.bgOpaque } } ∧
    ∀ py px,
      let ex := x + s.ppu.scrollX.toNat + 256 * (s.ppu.control.getLsbD 0).toNat
      let ey := y + s.ppu.scrollY.toNat + 240 * (s.ppu.control.getLsbD 1).toNat
      let table := 0x2000 + 0x400 * ((ex / 256) % 2 + 2 * ((ey / 240) % 2))
      let tx := ex % 256 / 8
      let ty := ey % 240 / 8
      let tile := (ppuByte (table + 32 * ty + tx) s).toNat
      let attr := (ppuByte (table + 0x3C0 + 8 * (ty / 4) + tx / 4) s).toNat
      let sel := attr / 2 ^ (4 * (ty % 4 / 2) + 2 * (tx % 4 / 2)) % 4
      let base := 0x1000 * (s.ppu.control.getLsbD 4).toNat + 16 * tile + ey % 8
      let pix := if s.ppu.mask.getLsbD 3 then planePixel (ppuByte base s) (ppuByte (base + 8) s) (px - x) else 0
      let index := if s.ppu.mask.getLsbD 3 then 4 * sel + pix else 0
      gridGet .black t.ppu.image py px =
        (if py = y ∧ x ≤ px ∧ px < x + 8 then .colour ((ppuByte (0x3F00 + index) s).setWidth 6)
        else gridGet .black s.ppu.image py px) ∧
      gridGet false t.ppu.bgOpaque py px =
        (if py = y ∧ x ≤ px ∧ px < x + 8 then decide (pix ≠ 0) else gridGet false s.ppu.bgOpaque py px)

/-- After sprite drawing every pixel is the colour of the lowest-numbered sprite that shows there (50 R363, 50 R364,
50 R365). Rests on the choices of log entries 5, 11, 18 and 19. -/
def Obligations.LowestNumberedSpriteWins : Prop :=
  ∀ s : State, s.chr.isSome = true → ∃ t, drawSprites s = .ok () t ∧
    t = { s with ppu := { s.ppu with image := t.ppu.image } } ∧ (s.ppu.mask.getLsbD 4 = false → t = s) ∧
    (s.ppu.mask.getLsbD 4 = true → ∀ y x, gridGet .black t.ppu.image y x =
      match (List.range 64).findSome? (fun n => spriteColour s n y x) with
      | some c => .colour c
      | none => gridGet .black s.ppu.image y x)

/-- Two machines that differ only in the image, its opacity bits and the last frame step alike in everything else
(50 R355, 10 R55, 10 R56). Rests on the choices of log entries 10, 11 and 19. -/
def Obligations.ImageFeedsNothingBack : Prop :=
  ∀ s t : State, SameButImage s t → OutcomesAgree SameButImage (step s) (step t)

/-- Every step keeps SP in page 1, the reserved flag set, the PPU counters in range, status bits 5 to 0 clear, the
keypad cursors below 8 (10 R24, 10 R31, 10 R47, 10 R53, 10 R66). Rests on the choices of log entries 19 and 20. -/
def Obligations.StepKeepsRegisterInvariant : Prop :=
  ∀ s t : State, RegisterInv s → step s = .next t → RegisterInv t

/-- Every step keeps every memory in canonical form within its size, aliased palette entries and unreachable video
RAM unlisted (10 R54, 10 R58, 10 R60, 10 R61, 10 R62). Rests on the choices of log entries 11, 12, 18 and 20. -/
def Obligations.StepKeepsMemoryInvariant : Prop :=
  ∀ s t : State, RegisterInv s → MemoryInv s → step s = .next t → MemoryInv t

/-- State.reset meets the register and the memory invariant and has both resources attached (10 R69, 70 R534). Rests
on the choices of log entries 1 and 2. -/
def Obligations.ResetMeetsTheInvariants : Prop :=
  RegisterInv State.reset ∧ MemoryInv State.reset ∧ Connected State.reset

end
end

