-- ==== Sys2Proof/Laws/Memory.lean ====
section
/-! SUPPORT. The laws of sparse data by key: read after write, and that every write keeps the canonical form. -/

namespace Sys2Proof.Machine

variable {α : Type}

theorem cellsGet_erase_same (d : α) (k : Nat) (m : List (Nat × α)) : cellsGet d k (cellsErase k m) = d := by
  induction m with
  | nil => rfl
  | cons c m ih =>
    obtain ⟨j, v⟩ := c
    by_cases h : j = k <;> simp [cellsErase, cellsGet, h, ih]

theorem cellsGet_erase_other (d : α) {k j : Nat} (h : j ≠ k) (m : List (Nat × α)) :
    cellsGet d j (cellsErase k m) = cellsGet d j m := by
  induction m with
  | nil => rfl
  | cons c m ih =>
    obtain ⟨l, v⟩ := c
    by_cases hk : l = k
    · have : ¬k = j := fun e => h e.symm
      simp [cellsErase, cellsGet, hk, ih, this]
    · simp [cellsErase, cellsGet, hk, ih]

theorem cellsGet_insert_other (d : α) {k j : Nat} (h : j ≠ k) (v : α) (m : List (Nat × α)) :
    cellsGet d j (cellsInsert k v m) = cellsGet d j m := by
  have hk : ¬k = j := fun e => h e.symm
  induction m with
  | nil => simp [cellsInsert, cellsGet, hk]
  | cons c m ih =>
    obtain ⟨l, w⟩ := c
    by_cases hl : l < k <;> simp [cellsInsert, cellsGet, hl, ih, hk]

theorem cellsGet_insert_same (d : α) {k : Nat} (v : α) (m : List (Nat × α)) :
    cellsGet d k (cellsInsert k v m) = v := by
  induction m with
  | nil => simp [cellsInsert, cellsGet]
  | cons c m ih =>
    obtain ⟨l, w⟩ := c
    by_cases hl : l < k
    · have : ¬l = k := by omega
      simp [cellsInsert, cellsGet, hl, ih, this]
    · simp [cellsInsert, cellsGet, hl]

theorem mem_erase {k : Nat} {m : List (Nat × α)} {c : Nat × α} (h : c ∈ cellsErase k m) : c ∈ m ∧ c.1 ≠ k := by
  induction m with
  | nil => simp [cellsErase] at h
  | cons e m ih =>
    obtain ⟨j, v⟩ := e
    by_cases hj : j = k
    · simp [cellsErase, hj] at h
      exact ⟨List.mem_cons_of_mem _ (ih h).1, (ih h).2⟩
    · simp [cellsErase, hj] at h
      rcases h with h | h
      · subst h; simp [hj]
      · exact ⟨List.mem_cons_of_mem _ (ih h).1, (ih h).2⟩

theorem mem_insert {k : Nat} {v : α} {m : List (Nat × α)} {c : Nat × α} (h : c ∈ cellsInsert k v m) :
    c = (k, v) ∨ c ∈ m := by
  induction m with
  | nil => simpa [cellsInsert] using h
  | cons e m ih =>
    obtain ⟨j, w⟩ := e
    by_cases hj : j < k
    · simp [cellsInsert, hj] at h
      rcases h with h | h
      · exact .inr (by simp [h])
      · exact (ih h).imp_right (List.mem_cons_of_mem _)
    · simpa [cellsInsert, hj] using h

theorem cellsGet_mem {d : α} {k : Nat} {m : List (Nat × α)} (h : cellsGet d k m ≠ d) :
    (k, cellsGet d k m) ∈ m := by
  induction m with
  | nil => exact absurd rfl h
  | cons c m ih =>
    obtain ⟨j, v⟩ := c
    by_cases hj : j = k
    · subst hj; simp [cellsGet]
    · simp only [cellsGet, hj, if_false] at h ⊢
      exact List.mem_cons_of_mem _ (ih h)

theorem rising_erase {k : Nat} {m : List (Nat × α)} (h : m.Pairwise (fun c d => c.1 < d.1)) :
    (cellsErase k m).Pairwise (fun c d => c.1 < d.1) := by
  induction m with
  | nil => simp [cellsErase]
  | cons e m ih =>
    obtain ⟨j, v⟩ := e
    rw [List.pairwise_cons] at h
    by_cases hj : j = k
    · simpa [cellsErase, hj] using ih h.2
    · simp only [cellsErase, hj, if_false, List.pairwise_cons]
      exact ⟨fun c hc => h.1 c (mem_erase hc).1, ih h.2⟩

theorem rising_insert {k : Nat} {v : α} {m : List (Nat × α)} (h : m.Pairwise (fun c d => c.1 < d.1))
    (hk : ∀ c ∈ m, c.1 ≠ k) : (cellsInsert k v m).Pairwise (fun c d => c.1 < d.1) := by
  induction m with
  | nil => simp [cellsInsert]
  | cons e m ih =>
    obtain ⟨j, w⟩ := e
    have hj : j ≠ k := hk (j, w) (by simp)
    rw [List.pairwise_cons] at h
    by_cases hlt : j < k
    · simp only [cellsInsert, hlt, if_true, List.pairwise_cons]
      refine ⟨fun c hc => ?_, ih h.2 fun c hc => hk c (List.mem_cons_of_mem _ hc)⟩
      rcases mem_insert hc with rfl | hc
      · exact hlt
      · exact h.1 c hc
    · have hlt' : k < j := by omega
      simp only [cellsInsert, hlt, if_false, List.pairwise_cons, List.mem_cons]
      refine ⟨fun c hc => ?_, h⟩
      rcases hc with rfl | hc
      · exact hlt'
      · exact Nat.lt_trans hlt' (h.1 c hc)

variable [DecidableEq α]

/-- Read after write, at the same key. -/
@[simp] theorem cellsGet_set_same (d : α) (k : Nat) (v : α) (m : List (Nat × α)) :
    cellsGet d k (cellsSet d k v m) = v := by
  by_cases h : v = d
  · simp [cellsSet, h, cellsGet_erase_same]
  · simp [cellsSet, h, cellsGet_insert_same]

/-- A write leaves every other key alone. -/
theorem cellsGet_set_other (d : α) {k j : Nat} (h : j ≠ k) (v : α) (m : List (Nat × α)) :
    cellsGet d j (cellsSet d k v m) = cellsGet d j m := by
  by_cases hv : v = d
  · simp [cellsSet, hv, cellsGet_erase_other d h]
  · simp [cellsSet, hv, cellsGet_insert_other d h, cellsGet_erase_other d h]

/-- Every write inside the bound keeps the canonical form. -/
theorem cellsWf_set {d : α} {b k : Nat} {v : α} {m : List (Nat × α)} (h : CellsWf d b m) (hk : k < b) :
    CellsWf d b (cellsSet d k v m) := by
  by_cases hv : v = d
  · simp only [cellsSet, hv, if_true]
    exact ⟨rising_erase h.1, fun c hc => h.2 c (mem_erase hc).1⟩
  · simp only [cellsSet, hv, if_false]
    refine ⟨rising_insert (rising_erase h.1) fun c hc => (mem_erase hc).2, fun c hc => ?_⟩
    rcases mem_insert hc with rfl | hc
    · exact ⟨hk, hv⟩
    · exact h.2 c (mem_erase hc).1

/-- Two canonical cell lists that read alike everywhere are equal. -/
theorem cellsWf_ext {d : α} {b : Nat} {m n : List (Nat × α)} (hm : CellsWf d b m) (hn : CellsWf d b n)
    (h : ∀ k, cellsGet d k m = cellsGet d k n) : m = n := by
  have head_get : ∀ {j : Nat} {v : α} {l : List (Nat × α)}, cellsGet d j ((j, v) :: l) = v := by
    intros; simp [cellsGet]
  have get_small : ∀ {l : List (Nat × α)} {j : Nat}, (∀ c ∈ l, j < c.1) → cellsGet d j l = d := by
    intro l j hl
    induction l with
    | nil => rfl
    | cons c l ih =>
      have : ¬c.1 = j := by have := hl c (by simp); omega
      simp only [cellsGet, this, if_false]
      exact ih fun c hc => hl c (List.mem_cons_of_mem _ hc)
  induction m generalizing n with
  | nil =>
    cases n with
    | nil => rfl
    | cons c n =>
      have := h c.1
      rw [head_get] at this
      exact absurd this.symm (hn.2 c (by simp)).2
  | cons c m ih =>
    have hm1 := List.pairwise_cons.mp hm.1
    cases n with
    | nil =>
      have := h c.1
      rw [head_get] at this
      exact absurd this (hm.2 c (by simp)).2
    | cons e n =>
      have hn1 := List.pairwise_cons.mp hn.1
      have key : c.1 = e.1 := by
        rcases Nat.lt_trichotomy c.1 e.1 with hl | he | hl
        · have := h c.1
          rw [head_get, get_small (fun x hx => by
            rcases List.mem_cons.mp hx with rfl | hx
            · exact hl
            · exact Nat.lt_trans hl (hn1.1 x hx))] at this
          exact absurd this (hm.2 c (by simp)).2
        · exact he
        · have := h e.1
          rw [head_get, get_small (fun x hx => by
            rcases List.mem_cons.mp hx with rfl | hx
            · exact hl
            · exact Nat.lt_trans hl (hm1.1 x hx))] at this
          exact absurd this.symm (hn.2 e (by simp)).2
      have val : c.2 = e.2 := by
        have := h c.1
        rw [head_get, key, head_get] at this
        exact this
      have tail : m = n := by
        refine ih ⟨hm1.2, fun x hx => hm.2 x (List.mem_cons_of_mem _ hx)⟩
          ⟨hn1.2, fun x hx => hn.2 x (List.mem_cons_of_mem _ hx)⟩ fun k => ?_
        by_cases hk : c.1 = k
        · rw [get_small (l := m) fun x hx => hk ▸ hm1.1 x hx,
            get_small (l := n) fun x hx => hk ▸ key ▸ hn1.1 x hx]
        · have := h k
          simpa [cellsGet, hk, key ▸ hk] using this
      rw [tail, Prod.ext key val]

/-- A byte read back is the byte written. -/
@[simp] theorem byteAt_setByte_same (m : Memory) (k : Nat) (v : Byte) : byteAt (setByte m k v) k = v :=
  cellsGet_set_same _ _ _ _

/-- A byte write leaves every other byte alone. -/
theorem byteAt_setByte_other {k j : Nat} (h : j ≠ k) (m : Memory) (v : Byte) :
    byteAt (setByte m k v) j = byteAt m j := cellsGet_set_other _ h _ _

theorem byteAt_setByte (m : Memory) (k j : Nat) (v : Byte) :
    byteAt (setByte m k v) j = if j = k then v else byteAt m j := by
  by_cases h : j = k
  · subst h; simp
  · simp [h, byteAt_setByte_other h]

/-- A byte write inside the memory keeps its canonical form. -/
theorem memoryWf_setByte {m : Memory} {n k : Nat} {v : Byte} (h : m.wf n) (hk : k < n) : (setByte m k v).wf n :=
  cellsWf_set h hk

/-- An entry read back is the entry written. -/
@[simp] theorem gridGet_set_same (d : α) (g : Grid α) (y x : Nat) (v : α) :
    gridGet d (gridSet d g y x v) y x = v := by
  simp [gridGet, gridSet]

/-- A grid write leaves every other place alone. -/
theorem gridGet_set_other (d : α) {y x y' x' : Nat} (h : ¬(y' = y ∧ x' = x)) (g : Grid α) (v : α) :
    gridGet d (gridSet d g y x v) y' x' = gridGet d g y' x' := by
  by_cases hy : y' = y
  · subst hy
    have hx : x' ≠ x := fun e => h ⟨rfl, e⟩
    simp [gridGet, gridSet, cellsGet_set_other d hx]
  · simp [gridGet, gridSet, cellsGet_set_other [] hy]

theorem gridGet_set (d : α) (g : Grid α) (y x y' x' : Nat) (v : α) :
    gridGet d (gridSet d g y x v) y' x' = if y' = y ∧ x' = x then v else gridGet d g y' x' := by
  by_cases h : y' = y ∧ x' = x
  · obtain ⟨rfl, rfl⟩ := h; simp
  · simp [h, gridGet_set_other d h]

/-- The entries after a write: the written one, and those there before. -/
theorem mem_set {d : α} {k : Nat} {v : α} {m : List (Nat × α)} {c : Nat × α} (h : c ∈ cellsSet d k v m) :
    c = (k, v) ∨ c ∈ m := by
  unfold cellsSet at h
  split at h
  · exact .inr (mem_erase h).1
  · exact (mem_insert h).imp_right fun h => (mem_erase h).1

/-- A grid write inside the image keeps the canonical form. -/
theorem gridWf_set {d : α} {g : Grid α} {y x : Nat} {v : α} (h : GridWf d g) (hy : y < 240) (hx : x < 256) :
    GridWf d (gridSet d g y x v) := by
  have row : CellsWf d 256 (cellsGet [] y g) := by
    by_cases he : cellsGet [] y g = []
    · rw [he]; exact ⟨List.Pairwise.nil, by simp⟩
    · exact h.2 _ (cellsGet_mem he)
  refine ⟨cellsWf_set h.1 hy, fun r hr => ?_⟩
  rcases mem_set hr with rfl | hr
  · exact cellsWf_set row hx
  · exact h.2 r hr

end Sys2Proof.Machine
end

