-- ==== Sys2Proof/Laws/Result.lean ====
section
/-! SUPPORT. How operations compose: the laws of `Result.bind` and `Result.outcome`. -/

namespace Sys2Proof.Machine

@[simp] theorem bind_ok {α β : Type} (v : α) (s : State) (k : α → State → Result β) :
    (Result.ok v s).bind k = k v s := rfl

@[simp] theorem bind_fault {α β : Type} (f : Fault) (k : α → State → Result β) :
    (Result.fault f : Result α).bind k = .fault f := rfl

/-- A composite ends well exactly when both parts do. -/
theorem bind_eq_ok {α β : Type} {r : Result α} {k : α → State → Result β} {w : β} {t : State} :
    r.bind k = .ok w t ↔ ∃ v s, r = .ok v s ∧ k v s = .ok w t := by
  cases r with
  | ok v s => exact ⟨fun h => ⟨v, s, rfl, h⟩, fun ⟨_, _, e, h⟩ => by cases e; exact h⟩
  | fault f => exact ⟨fun h => (by cases h), fun ⟨_, _, e, _⟩ => (by cases e)⟩

/-- A composite faults exactly when its first part does, or its second after the first ended well. -/
theorem bind_eq_fault {α β : Type} {r : Result α} {k : α → State → Result β} {f : Fault} :
    r.bind k = .fault f ↔ r = .fault f ∨ ∃ v s, r = .ok v s ∧ k v s = .fault f := by
  cases r with
  | ok v s =>
    exact ⟨fun h => .inr ⟨v, s, rfl, h⟩,
      fun h => h.elim (fun e => by cases e) fun ⟨_, _, e, h⟩ => by cases e; exact h⟩
  | fault g =>
    exact ⟨fun h => .inl (by cases h; rfl), fun h => h.elim (fun e => by cases e; rfl) fun ⟨_, _, e, _⟩ => by cases e⟩

@[simp] theorem outcome_ok (v : Unit) (s : State) : (Result.ok v s).outcome = .next s := rfl

@[simp] theorem outcome_fault (f : Fault) : (Result.fault f : Result Unit).outcome = .fault f := rfl

theorem outcome_eq_next {r : Result Unit} {t : State} : r.outcome = .next t ↔ r = .ok () t := by
  cases r <;> simp

theorem outcome_eq_fault {r : Result Unit} {f : Fault} : r.outcome = .fault f ↔ r = .fault f := by
  cases r <;> simp

/-- Operations refuse nothing. -/
theorem outcome_ne_refused (r : Result Unit) (q : Refusal) : r.outcome ≠ .refused q := by
  cases r <;> simp

/-- Every state an operation can end well in has the property. -/
def Result.Ends {α : Type} (P : State → Prop) (r : Result α) : Prop := ∀ v t, r = .ok v t → P t

theorem ends_ok {α : Type} {P : State → Prop} {v : α} {s : State} (h : P s) : (Result.ok v s).Ends P := by
  intro v t e; cases e; exact h

theorem ends_fault {α : Type} {P : State → Prop} {f : Fault} : (Result.fault f : Result α).Ends P := by
  intro v t e; cases e

/-- A property that the first part establishes and every continuation keeps holds after the composite. -/
theorem ends_bind {α β : Type} {P Q : State → Prop} {r : Result α} {k : α → State → Result β} (hr : r.Ends P)
    (hk : ∀ v s, P s → (k v s).Ends Q) : (r.bind k).Ends Q := by
  intro w t e
  obtain ⟨v, s, h1, h2⟩ := bind_eq_ok.mp e
  exact hk v s (hr v s h1) w t h2

end Sys2Proof.Machine
end

