-- ==== Sys2Proof/Laws/State.lean ====
section
/-! SUPPORT. One lemma for each field of State and each register write: what the write gives and what it leaves. -/

namespace Sys2Proof.Machine

@[simp] theorem setA_cpu_a (s : State) (v : Byte) : (s.setA v).cpu.a = v := rfl
@[simp] theorem setA_cpu_x (s : State) (v : Byte) : (s.setA v).cpu.x = s.cpu.x := rfl
@[simp] theorem setA_cpu_y (s : State) (v : Byte) : (s.setA v).cpu.y = s.cpu.y := rfl
@[simp] theorem setA_cpu_pc (s : State) (v : Byte) : (s.setA v).cpu.pc = s.cpu.pc := rfl
@[simp] theorem setA_cpu_sp (s : State) (v : Byte) : (s.setA v).cpu.sp = s.cpu.sp := rfl
@[simp] theorem setA_cpu_p (s : State) (v : Byte) : (s.setA v).cpu.p = s.cpu.p := rfl
@[simp] theorem setA_int (s : State) (v : Byte) : (s.setA v).int = s.int := rfl
@[simp] theorem setA_ppu (s : State) (v : Byte) : (s.setA v).ppu = s.ppu := rfl
@[simp] theorem setA_wram (s : State) (v : Byte) : (s.setA v).wram = s.wram := rfl
@[simp] theorem setA_chr (s : State) (v : Byte) : (s.setA v).chr = s.chr := rfl
@[simp] theorem setA_vram (s : State) (v : Byte) : (s.setA v).vram = s.vram := rfl
@[simp] theorem setA_palette (s : State) (v : Byte) : (s.setA v).palette = s.palette := rfl
@[simp] theorem setA_dma (s : State) (v : Byte) : (s.setA v).dma = s.dma := rfl
@[simp] theorem setA_keypad1 (s : State) (v : Byte) : (s.setA v).keypad1 = s.keypad1 := rfl
@[simp] theorem setA_keypad2 (s : State) (v : Byte) : (s.setA v).keypad2 = s.keypad2 := rfl
@[simp] theorem setA_fault (s : State) (v : Byte) : (s.setA v).fault = s.fault := rfl
@[simp] theorem setA_config (s : State) (v : Byte) : (s.setA v).config = s.config := rfl
@[simp] theorem setA_schedule (s : State) (v : Byte) : (s.setA v).schedule = s.schedule := rfl
@[simp] theorem setA_render (s : State) (v : Byte) : (s.setA v).render = s.render := rfl

@[simp] theorem setX_cpu_a (s : State) (v : Byte) : (s.setX v).cpu.a = s.cpu.a := rfl
@[simp] theorem setX_cpu_x (s : State) (v : Byte) : (s.setX v).cpu.x = v := rfl
@[simp] theorem setX_cpu_y (s : State) (v : Byte) : (s.setX v).cpu.y = s.cpu.y := rfl
@[simp] theorem setX_cpu_pc (s : State) (v : Byte) : (s.setX v).cpu.pc = s.cpu.pc := rfl
@[simp] theorem setX_cpu_sp (s : State) (v : Byte) : (s.setX v).cpu.sp = s.cpu.sp := rfl
@[simp] theorem setX_cpu_p (s : State) (v : Byte) : (s.setX v).cpu.p = s.cpu.p := rfl
@[simp] theorem setX_int (s : State) (v : Byte) : (s.setX v).int = s.int := rfl
@[simp] theorem setX_ppu (s : State) (v : Byte) : (s.setX v).ppu = s.ppu := rfl
@[simp] theorem setX_wram (s : State) (v : Byte) : (s.setX v).wram = s.wram := rfl
@[simp] theorem setX_chr (s : State) (v : Byte) : (s.setX v).chr = s.chr := rfl
@[simp] theorem setX_vram (s : State) (v : Byte) : (s.setX v).vram = s.vram := rfl
@[simp] theorem setX_palette (s : State) (v : Byte) : (s.setX v).palette = s.palette := rfl
@[simp] theorem setX_dma (s : State) (v : Byte) : (s.setX v).dma = s.dma := rfl
@[simp] theorem setX_keypad1 (s : State) (v : Byte) : (s.setX v).keypad1 = s.keypad1 := rfl
@[simp] theorem setX_keypad2 (s : State) (v : Byte) : (s.setX v).keypad2 = s.keypad2 := rfl
@[simp] theorem setX_fault (s : State) (v : Byte) : (s.setX v).fault = s.fault := rfl
@[simp] theorem setX_config (s : State) (v : Byte) : (s.setX v).config = s.config := rfl
@[simp] theorem setX_schedule (s : State) (v : Byte) : (s.setX v).schedule = s.schedule := rfl
@[simp] theorem setX_render (s : State) (v : Byte) : (s.setX v).render = s.render := rfl

@[simp] theorem setY_cpu_a (s : State) (v : Byte) : (s.setY v).cpu.a = s.cpu.a := rfl
@[simp] theorem setY_cpu_x (s : State) (v : Byte) : (s.setY v).cpu.x = s.cpu.x := rfl
@[simp] theorem setY_cpu_y (s : State) (v : Byte) : (s.setY v).cpu.y = v := rfl
@[simp] theorem setY_cpu_pc (s : State) (v : Byte) : (s.setY v).cpu.pc = s.cpu.pc := rfl
@[simp] theorem setY_cpu_sp (s : State) (v : Byte) : (s.setY v).cpu.sp = s.cpu.sp := rfl
@[simp] theorem setY_cpu_p (s : State) (v : Byte) : (s.setY v).cpu.p = s.cpu.p := rfl
@[simp] theorem setY_int (s : State) (v : Byte) : (s.setY v).int = s.int := rfl
@[simp] theorem setY_ppu (s : State) (v : Byte) : (s.setY v).ppu = s.ppu := rfl
@[simp] theorem setY_wram (s : State) (v : Byte) : (s.setY v).wram = s.wram := rfl
@[simp] theorem setY_chr (s : State) (v : Byte) : (s.setY v).chr = s.chr := rfl
@[simp] theorem setY_vram (s : State) (v : Byte) : (s.setY v).vram = s.vram := rfl
@[simp] theorem setY_palette (s : State) (v : Byte) : (s.setY v).palette = s.palette := rfl
@[simp] theorem setY_dma (s : State) (v : Byte) : (s.setY v).dma = s.dma := rfl
@[simp] theorem setY_keypad1 (s : State) (v : Byte) : (s.setY v).keypad1 = s.keypad1 := rfl
@[simp] theorem setY_keypad2 (s : State) (v : Byte) : (s.setY v).keypad2 = s.keypad2 := rfl
@[simp] theorem setY_fault (s : State) (v : Byte) : (s.setY v).fault = s.fault := rfl
@[simp] theorem setY_config (s : State) (v : Byte) : (s.setY v).config = s.config := rfl
@[simp] theorem setY_schedule (s : State) (v : Byte) : (s.setY v).schedule = s.schedule := rfl
@[simp] theorem setY_render (s : State) (v : Byte) : (s.setY v).render = s.render := rfl

@[simp] theorem setPc_cpu_a (s : State) (v : Word) : (s.setPc v).cpu.a = s.cpu.a := rfl
@[simp] theorem setPc_cpu_x (s : State) (v : Word) : (s.setPc v).cpu.x = s.cpu.x := rfl
@[simp] theorem setPc_cpu_y (s : State) (v : Word) : (s.setPc v).cpu.y = s.cpu.y := rfl
@[simp] theorem setPc_cpu_pc (s : State) (v : Word) : (s.setPc v).cpu.pc = v := rfl
@[simp] theorem setPc_cpu_sp (s : State) (v : Word) : (s.setPc v).cpu.sp = s.cpu.sp := rfl
@[simp] theorem setPc_cpu_p (s : State) (v : Word) : (s.setPc v).cpu.p = s.cpu.p := rfl
@[simp] theorem setPc_int (s : State) (v : Word) : (s.setPc v).int = s.int := rfl
@[simp] theorem setPc_ppu (s : State) (v : Word) : (s.setPc v).ppu = s.ppu := rfl
@[simp] theorem setPc_wram (s : State) (v : Word) : (s.setPc v).wram = s.wram := rfl
@[simp] theorem setPc_chr (s : State) (v : Word) : (s.setPc v).chr = s.chr := rfl
@[simp] theorem setPc_vram (s : State) (v : Word) : (s.setPc v).vram = s.vram := rfl
@[simp] theorem setPc_palette (s : State) (v : Word) : (s.setPc v).palette = s.palette := rfl
@[simp] theorem setPc_dma (s : State) (v : Word) : (s.setPc v).dma = s.dma := rfl
@[simp] theorem setPc_keypad1 (s : State) (v : Word) : (s.setPc v).keypad1 = s.keypad1 := rfl
@[simp] theorem setPc_keypad2 (s : State) (v : Word) : (s.setPc v).keypad2 = s.keypad2 := rfl
@[simp] theorem setPc_fault (s : State) (v : Word) : (s.setPc v).fault = s.fault := rfl
@[simp] theorem setPc_config (s : State) (v : Word) : (s.setPc v).config = s.config := rfl
@[simp] theorem setPc_schedule (s : State) (v : Word) : (s.setPc v).schedule = s.schedule := rfl
@[simp] theorem setPc_render (s : State) (v : Word) : (s.setPc v).render = s.render := rfl

@[simp] theorem setSp_cpu_a (s : State) (v : Word) : (s.setSp v).cpu.a = s.cpu.a := rfl
@[simp] theorem setSp_cpu_x (s : State) (v : Word) : (s.setSp v).cpu.x = s.cpu.x := rfl
@[simp] theorem setSp_cpu_y (s : State) (v : Word) : (s.setSp v).cpu.y = s.cpu.y := rfl
@[simp] theorem setSp_cpu_pc (s : State) (v : Word) : (s.setSp v).cpu.pc = s.cpu.pc := rfl
@[simp] theorem setSp_cpu_sp (s : State) (v : Word) : (s.setSp v).cpu.sp = v := rfl
@[simp] theorem setSp_cpu_p (s : State) (v : Word) : (s.setSp v).cpu.p = s.cpu.p := rfl
@[simp] theorem setSp_int (s : State) (v : Word) : (s.setSp v).int = s.int := rfl
@[simp] theorem setSp_ppu (s : State) (v : Word) : (s.setSp v).ppu = s.ppu := rfl
@[simp] theorem setSp_wram (s : State) (v : Word) : (s.setSp v).wram = s.wram := rfl
@[simp] theorem setSp_chr (s : State) (v : Word) : (s.setSp v).chr = s.chr := rfl
@[simp] theorem setSp_vram (s : State) (v : Word) : (s.setSp v).vram = s.vram := rfl
@[simp] theorem setSp_palette (s : State) (v : Word) : (s.setSp v).palette = s.palette := rfl
@[simp] theorem setSp_dma (s : State) (v : Word) : (s.setSp v).dma = s.dma := rfl
@[simp] theorem setSp_keypad1 (s : State) (v : Word) : (s.setSp v).keypad1 = s.keypad1 := rfl
@[simp] theorem setSp_keypad2 (s : State) (v : Word) : (s.setSp v).keypad2 = s.keypad2 := rfl
@[simp] theorem setSp_fault (s : State) (v : Word) : (s.setSp v).fault = s.fault := rfl
@[simp] theorem setSp_config (s : State) (v : Word) : (s.setSp v).config = s.config := rfl
@[simp] theorem setSp_schedule (s : State) (v : Word) : (s.setSp v).schedule = s.schedule := rfl
@[simp] theorem setSp_render (s : State) (v : Word) : (s.setSp v).render = s.render := rfl

@[simp] theorem setP_cpu_a (s : State) (v : Byte) : (s.setP v).cpu.a = s.cpu.a := rfl
@[simp] theorem setP_cpu_x (s : State) (v : Byte) : (s.setP v).cpu.x = s.cpu.x := rfl
@[simp] theorem setP_cpu_y (s : State) (v : Byte) : (s.setP v).cpu.y = s.cpu.y := rfl
@[simp] theorem setP_cpu_pc (s : State) (v : Byte) : (s.setP v).cpu.pc = s.cpu.pc := rfl
@[simp] theorem setP_cpu_sp (s : State) (v : Byte) : (s.setP v).cpu.sp = s.cpu.sp := rfl
@[simp] theorem setP_cpu_p (s : State) (v : Byte) : (s.setP v).cpu.p = v := rfl
@[simp] theorem setP_int (s : State) (v : Byte) : (s.setP v).int = s.int := rfl
@[simp] theorem setP_ppu (s : State) (v : Byte) : (s.setP v).ppu = s.ppu := rfl
@[simp] theorem setP_wram (s : State) (v : Byte) : (s.setP v).wram = s.wram := rfl
@[simp] theorem setP_chr (s : State) (v : Byte) : (s.setP v).chr = s.chr := rfl
@[simp] theorem setP_vram (s : State) (v : Byte) : (s.setP v).vram = s.vram := rfl
@[simp] theorem setP_palette (s : State) (v : Byte) : (s.setP v).palette = s.palette := rfl
@[simp] theorem setP_dma (s : State) (v : Byte) : (s.setP v).dma = s.dma := rfl
@[simp] theorem setP_keypad1 (s : State) (v : Byte) : (s.setP v).keypad1 = s.keypad1 := rfl
@[simp] theorem setP_keypad2 (s : State) (v : Byte) : (s.setP v).keypad2 = s.keypad2 := rfl
@[simp] theorem setP_fault (s : State) (v : Byte) : (s.setP v).fault = s.fault := rfl
@[simp] theorem setP_config (s : State) (v : Byte) : (s.setP v).config = s.config := rfl
@[simp] theorem setP_schedule (s : State) (v : Byte) : (s.setP v).schedule = s.schedule := rfl
@[simp] theorem setP_render (s : State) (v : Byte) : (s.setP v).render = s.render := rfl

end Sys2Proof.Machine
end

