-- ==== Sys2Proof/Laws/Bus.lean ====
section
/-! SUPPORT. What an access of the two buses can do: when it ends well, what it may change, and that it neither sees nor
touches the CPU registers. -/

namespace Sys2Proof.Machine

/-- A result with its state mapped. -/
def Result.mapState {α : Type} (f : State → State) : Result α → Result α
  | .ok v s => .ok v (f s)
  | .fault g => .fault g

@[simp] theorem mapState_ok {α : Type} (f : State → State) (v : α) (s : State) :
    (Result.ok v s).mapState f = .ok v (f s) := rfl

@[simp] theorem mapState_fault {α : Type} (f : State → State) (g : Fault) :
    (Result.fault g : Result α).mapState f = .fault g := rfl

theorem ppuAddress_lt (a : Word) : ppuAddress a < 0x4000 := Nat.mod_lt _ (by decide)

/-- A PPU-bus read changes nothing. -/
theorem ppuBusRead_state {a : Word} {s t : State} {v : Byte} (h : ppuBusRead a s = .ok v t) : t = s := by
  unfold ppuBusRead at h
  dsimp only at h
  repeat' split at h
  all_goals first | (cases h; rfl) | cases h

/-- With character memory attached a PPU-bus read ends well. -/
theorem ppuBusRead_connected (a : Word) {s : State} (h : s.chr.isSome = true) : ∃ v, ppuBusRead a s = .ok v s := by
  obtain ⟨m, hm⟩ := Option.isSome_iff_exists.mp h
  have := ppuAddress_lt a
  unfold ppuBusRead
  dsimp only
  rw [hm]
  repeat' split
  all_goals first | exact ⟨_, rfl⟩ | contradiction | omega

/-- The only fault of a PPU-bus read. -/
theorem ppuBusRead_fault {a : Word} {s : State} {f : Fault} (h : ppuBusRead a s = .fault f) :
    f = .resourceNotConnected .characterMemory ∧ s.chr = none := by
  have := ppuAddress_lt a
  unfold ppuBusRead at h
  dsimp only at h
  repeat' split at h
  all_goals first | (cases h; done) | omega | (cases h; exact ⟨rfl, ‹_›⟩)

/-- A PPU-bus read looks only at the three memories and the mirror parameter. -/
theorem ppuBusRead_congr {a : Word} {s t : State} (hc : t.chr = s.chr) (hv : t.vram = s.vram)
    (hp : t.palette = s.palette) (hm : t.config = s.config) :
    ppuBusRead a t = (ppuBusRead a s).mapState fun _ => t := by
  unfold ppuBusRead
  dsimp only
  rw [hc, hv, hp, hm]
  repeat' split
  all_goals rfl

/-- A PPU-bus write changes the memories behind the bus only, and attaches or removes nothing. -/
theorem ppuBusWrite_state {a : Word} {v : Byte} {s t : State} (h : ppuBusWrite a v s = .ok () t) :
    t = { s with chr := t.chr, vram := t.vram, palette := t.palette } ∧ t.chr.isSome = s.chr.isSome := by
  unfold ppuBusWrite at h
  dsimp only at h
  repeat' split at h
  all_goals first | (cases h; done) | (cases h; exact ⟨rfl, by simp_all⟩)

/-- With character memory attached a PPU-bus write ends well. -/
theorem ppuBusWrite_connected (a : Word) (v : Byte) {s : State} (h : s.chr.isSome = true) :
    ∃ t, ppuBusWrite a v s = .ok () t := by
  obtain ⟨m, hm⟩ := Option.isSome_iff_exists.mp h
  have := ppuAddress_lt a
  unfold ppuBusWrite
  dsimp only
  rw [hm]
  repeat' split
  all_goals first | exact ⟨_, rfl⟩ | contradiction | omega

/-- The only fault of a PPU-bus write. -/
theorem ppuBusWrite_fault {a : Word} {v : Byte} {s : State} {f : Fault} (h : ppuBusWrite a v s = .fault f) :
    f = .resourceNotConnected .characterMemory ∧ s.chr = none := by
  have := ppuAddress_lt a
  unfold ppuBusWrite at h
  dsimp only at h
  repeat' split at h
  all_goals first | (cases h; done) | omega | (cases h; exact ⟨rfl, ‹_›⟩)

@[simp] theorem ReadEffects.refl (s : State) : ReadEffects s s := ⟨rfl, rfl⟩

theorem ReadEffects.trans {s t u : State} (h : ReadEffects s t) (k : ReadEffects t u) : ReadEffects s u := by
  refine ⟨?_, k.2.trans h.2⟩
  have h1 := h.1
  have k1 := k.1
  rw [h1] at k1
  exact k1

/-- The fields that a read leaves. -/
theorem ReadEffects.fields {s t : State} (h : ReadEffects s t) :
    t.cpu = s.cpu ∧ t.int = s.int ∧ t.wram = s.wram ∧ t.chr = s.chr ∧ t.vram = s.vram ∧ t.palette = s.palette ∧
      t.dma = s.dma ∧ t.fault = s.fault ∧ t.config = s.config ∧ t.schedule = s.schedule ∧ t.render = s.render := by
  rw [h.1]
  exact ⟨rfl, rfl, rfl, rfl, rfl, rfl, rfl, rfl, rfl, rfl,
    rfl⟩

theorem ReadEffects.connected {s t : State} (h : ReadEffects s t) (c : Connected s) : Connected t := by
  obtain ⟨-, -, -, hc, -, -, -, -, hg, -⟩ := h.fields
  exact ⟨by rw [hg]; exact c.1, by rw [hc]; exact c.2⟩

theorem readVramData_effects {s t : State} {v : Byte} (h : readVramData s = .ok v t) : ReadEffects s t := by
  unfold readVramData at h
  obtain ⟨b, u, h1, h2⟩ := bind_eq_ok.mp h
  obtain rfl := ppuBusRead_state h1
  split at h2 <;> cases h2 <;> exact ⟨rfl, rfl⟩

/-- A port read changes what 20 R109 lists. -/
theorem ppuPortRead_effects {p : Nat} {s t : State} {v : Byte} (h : ppuPortRead p s = .ok v t) : ReadEffects s t := by
  unfold ppuPortRead at h
  split at h
  · cases h
    refine ⟨rfl, ?_⟩
    show (s.ppu.status &&& 0x7F) &&& 0x7F = s.ppu.status &&& 0x7F
    rw [BitVec.and_assoc, BitVec.and_self]
  · cases h; exact .refl _
  · exact readVramData_effects h
  · cases h; exact .refl _

/-- A CPU-bus read changes what 20 R109 lists. -/
theorem busRead_effects {a : Nat} {s t : State} {v : Byte} (h : busRead a s = .ok v t) : ReadEffects s t := by
  unfold busRead at h
  repeat' split at h
  all_goals first
    | exact ppuPortRead_effects h
    | (cases h; done)
    | (cases h; exact ⟨rfl, rfl⟩)

theorem memRead_effects {a : Word} {s t : State} {v : Byte} (h : memRead a s = .ok v t) : ReadEffects s t :=
  busRead_effects h

theorem ppuPortRead_connected (p : Nat) {s : State} (c : Connected s) : ∃ v t, ppuPortRead p s = .ok v t := by
  unfold ppuPortRead
  split
  · exact ⟨_, _, rfl⟩
  · exact ⟨_, _, rfl⟩
  · obtain ⟨v, hv⟩ := ppuBusRead_connected s.ppu.videoRamAddress c.2
    unfold readVramData
    dsimp only
    rw [hv, bind_ok]
    split <;> exact ⟨_, _, rfl⟩
  · exact ⟨_, _, rfl⟩

/-- With both resources attached every CPU-bus read ends well. -/
theorem memRead_connected (a : Word) {s : State} (c : Connected s) : ∃ v t, memRead a s = .ok v t := by
  obtain ⟨rom, hr⟩ := Option.isSome_iff_exists.mp c.1
  have := a.isLt
  unfold memRead busRead
  rw [hr]
  repeat' split
  all_goals first | exact ppuPortRead_connected _ c | exact ⟨_, _, rfl⟩ | contradiction | omega

/-- A read of working RAM. -/
theorem memRead_wram {a : Word} (h : a.toNat < 0x2000) (s : State) :
    memRead a s = .ok (byteAt s.wram (a.toNat % 0x800)) s := by
  simp [memRead, busRead, wramOffset, h]

/-- A read of attached program ROM. -/
theorem memRead_rom {a : Word} (h : 0x8000 ≤ a.toNat) {s : State} {rom : PrgRom} (hr : s.config.prgRom = some rom) :
    memRead a s = .ok (byteAt rom.bytes (prgOffset rom.size a.toNat)) s := by
  have := a.isLt
  unfold memRead busRead
  rw [hr]
  repeat' split
  all_goals first | (cases ‹some rom = some _›; rfl) | rfl | contradiction | omega

/-- A read where memory holds a byte gives that byte and changes nothing. -/
theorem memRead_storedByte {a : Word} {s : State} {v : Byte} (h : storedByte s a = some v) :
    memRead a s = .ok v s := by
  unfold storedByte at h
  split at h
  · rw [memRead_wram ‹_›]; cases h; rfl
  · split at h
    · cases h
    · cases hr : s.config.prgRom with
      | none => rw [hr] at h; cases h
      | some rom =>
        rw [hr] at h
        rw [memRead_rom (by omega) hr]
        cases h; rfl

/-- A read neither sees nor touches the CPU registers. -/
theorem memRead_cpu (a : Word) (s : State) (c : Cpu) :
    memRead a { s with cpu := c } = (memRead a s).mapState fun t => { t with cpu := c } := by
  have port : ∀ p, ppuPortRead p { s with cpu := c } = (ppuPortRead p s).mapState fun t => { t with cpu := c } := by
    intro p
    unfold ppuPortRead
    split
    · rfl
    · rfl
    · unfold readVramData
      dsimp only
      have e : ppuBusRead s.ppu.videoRamAddress { s with cpu := c } = _ := ppuBusRead_congr (s := s) rfl rfl rfl rfl
      rw [e]
      cases h : ppuBusRead s.ppu.videoRamAddress s with
      | fault f => rfl
      | ok v t =>
        obtain rfl := ppuBusRead_state h
        simp only [mapState_ok, bind_ok]
        split <;> rfl
    · rfl
  unfold memRead busRead
  dsimp only
  cases s.config.prgRom <;> dsimp only <;> repeat' split
  all_goals first | exact port _ | rfl

theorem ppuPortWrite_effects {p : Nat} {v : Byte} {s t : State} (h : ppuPortWrite p v s = .ok () t) :
    t = { s with
      ppu := { t.ppu with
        status := s.ppu.status
        readBuffer := s.ppu.readBuffer
        cycle := s.ppu.cycle
        line := s.ppu.line
        image := s.ppu.image
        bgOpaque := s.ppu.bgOpaque }
      chr := t.chr
      vram := t.vram
      palette := t.palette } ∧ t.chr.isSome = s.chr.isSome := by
  unfold ppuPortWrite at h
  split at h
  · cases h; exact ⟨rfl, rfl⟩
  · cases h; exact ⟨rfl, rfl⟩
  · cases h; exact ⟨rfl, rfl⟩
  · cases h; exact ⟨rfl, rfl⟩
  · cases h
    unfold writeScroll
    split <;> exact ⟨rfl, rfl⟩
  · cases h
    unfold writeVramAddress
    split <;> exact ⟨rfl, rfl⟩
  · unfold writeVramData at h
    obtain ⟨⟨⟩, u, h1, h2⟩ := bind_eq_ok.mp h
    obtain ⟨hu, hc⟩ := ppuBusWrite_state h1
    cases h2
    refine ⟨?_, hc⟩
    have e : u.ppu = s.ppu := by rw [hu]
    unfold vramIncrement
    dsimp only
    rw [e]
    conv => lhs; rw [hu]
  · cases h; exact ⟨rfl, rfl⟩

/-- A CPU-bus write changes only what stands behind its address, and attaches or removes nothing. -/
theorem memWrite_effects {a : Word} {v : Byte} {s t : State} (h : memWrite a v s = .ok () t) :
    WriteEffects a s t ∧ t.chr.isSome = s.chr.isSome := by
  have h14 : a = 0x4014 ↔ a.toNat = 0x4014 := ⟨fun e => by rw [e]; rfl, fun e => BitVec.eq_of_toNat_eq e⟩
  have h16 : a = 0x4016 ↔ a.toNat = 0x4016 := ⟨fun e => by rw [e]; rfl, fun e => BitVec.eq_of_toNat_eq e⟩
  have h17 : a = 0x4017 ↔ a.toNat = 0x4017 := ⟨fun e => by rw [e]; rfl, fun e => BitVec.eq_of_toNat_eq e⟩
  unfold WriteEffects
  simp only [h14, h16, h17]
  unfold memWrite busWrite at h
  repeat' split at h
  all_goals simp_all only [if_true, if_false]
  · cases h
    exact ⟨⟨rfl, fun k hk => byteAt_setByte_other hk _ _⟩, rfl⟩
  · exact ppuPortWrite_effects h
  all_goals cases h; first | exact ⟨rfl, rfl⟩ | (refine ⟨?_, rfl⟩; split <;> first | rfl | omega) | skip

theorem WriteEffects.fields {a : Word} {s t : State} (h : WriteEffects a s t) :
    t.cpu = s.cpu ∧ t.int = s.int ∧ t.fault = s.fault ∧ t.config = s.config ∧ t.schedule = s.schedule ∧
      t.render = s.render := by
  unfold WriteEffects at h
  repeat' split at h
  all_goals first
    | (rw [h.1]; exact ⟨rfl, rfl, rfl, rfl, rfl, rfl⟩)
    | (rw [h]; exact ⟨rfl, rfl, rfl, rfl, rfl, rfl⟩)

theorem memWrite_keepsConnected {a : Word} {v : Byte} {s t : State} (h : memWrite a v s = .ok () t)
    (c : Connected s) : Connected t := by
  obtain ⟨w, hc⟩ := memWrite_effects h
  exact ⟨by rw [w.fields.2.2.2.1]; exact c.1, by rw [hc]; exact c.2⟩

/-- With both resources attached every CPU-bus write ends well. -/
theorem memWrite_connected (a : Word) (v : Byte) {s : State} (c : Connected s) : ∃ t, memWrite a v s = .ok () t := by
  obtain ⟨rom, hr⟩ := Option.isSome_iff_exists.mp c.1
  have := a.isLt
  have port : ∀ p, ∃ t, ppuPortWrite p v s = .ok () t := by
    intro p
    unfold ppuPortWrite
    split
    all_goals first
      | exact ⟨_, rfl⟩
      | (obtain ⟨t, ht⟩ := ppuBusWrite_connected s.ppu.videoRamAddress v c.2
         unfold writeVramData
         rw [ht, bind_ok]
         exact ⟨_, rfl⟩)
  unfold memWrite busWrite
  rw [hr]
  repeat' split
  all_goals first | exact port _ | exact ⟨_, rfl⟩ | contradiction | omega

/-- A write of working RAM. -/
theorem memWrite_wram {a : Word} (h : a.toNat < 0x2000) (v : Byte) (s : State) :
    memWrite a v s = .ok () { s with wram := setByte s.wram (a.toNat % 0x800) v } := by
  simp [memWrite, busWrite, wramOffset, h]

/-- The only faults of a CPU-bus read: a resource that is absent. -/
theorem memRead_fault {a : Word} {s : State} {f : Fault} (h : memRead a s = .fault f) :
    (f = .resourceNotConnected .programRom ∧ s.config.prgRom = none) ∨
      (f = .resourceNotConnected .characterMemory ∧ s.chr = none) := by
  have port : ∀ p, ppuPortRead p s = .fault f → f = .resourceNotConnected .characterMemory ∧ s.chr = none := by
    intro p hp
    unfold ppuPortRead at hp
    split at hp
    · cases hp
    · cases hp
    · unfold readVramData at hp
      rcases bind_eq_fault.mp hp with e | ⟨_, _, _, e⟩
      · exact ppuBusRead_fault e
      · split at e <;> cases e
    · cases hp
  have := a.isLt
  unfold memRead busRead at h
  repeat' split at h
  all_goals first | (cases h; done) | exact .inr (port _ h) | omega | (cases h; exact .inl ⟨rfl, ‹_›⟩)

/-- The only faults of a CPU-bus write: a resource that is absent. -/
theorem memWrite_fault {a : Word} {v : Byte} {s : State} {f : Fault} (h : memWrite a v s = .fault f) :
    (f = .resourceNotConnected .programRom ∧ s.config.prgRom = none) ∨
      (f = .resourceNotConnected .characterMemory ∧ s.chr = none) := by
  have port : ∀ p, ppuPortWrite p v s = .fault f → f = .resourceNotConnected .characterMemory ∧ s.chr = none := by
    intro p hp
    unfold ppuPortWrite at hp
    split at hp
    all_goals first
      | (cases hp; done)
      | (unfold writeVramData at hp
         rcases bind_eq_fault.mp hp with e | ⟨_, _, _, e⟩
         · exact ppuBusWrite_fault e
         · cases e)
  have := a.isLt
  unfold memWrite busWrite at h
  repeat' split at h
  all_goals first | (cases h; done) | exact .inr (port _ h) | omega | (cases h; exact .inl ⟨rfl, ‹_›⟩)

end Sys2Proof.Machine
end

