-- ==== Sys2Proof/Laws/Flags.lean ====
section
/-! SUPPORT. The laws of the status byte: a flag write gives that flag and leaves the other seven. -/

namespace Sys2Proof.Machine

/-- A flag read after a flag write. -/
@[simp] theorem flagOf_withFlag (f g : Flag) (b : Bool) (p : Byte) :
    flagOf g (withFlag f b p) = if g = f then b else flagOf g p := by
  cases f <;> cases g <;> cases b <;> simp [flagOf, withFlag, Flag.bit]

/-- Two status bytes with the same eight flags are equal. -/
theorem status_ext {p q : Byte} (h : ∀ f, flagOf f p = flagOf f q) : p = q := by
  apply BitVec.eq_of_getLsbD_eq
  intro k hk
  have h0 := h .C; have h1 := h .Z; have h2 := h .I; have h3 := h .D
  have h4 := h .B; have h5 := h .R; have h6 := h .V; have h7 := h .N
  simp only [flagOf, Flag.bit] at h0 h1 h2 h3 h4 h5 h6 h7
  match k, hk with
  | 0, _ => exact h0
  | 1, _ => exact h1
  | 2, _ => exact h2
  | 3, _ => exact h3
  | 4, _ => exact h4
  | 5, _ => exact h5
  | 6, _ => exact h6
  | 7, _ => exact h7

@[simp] theorem flag_setA (s : State) (v : Byte) (f : Flag) : (s.setA v).flag f = s.flag f := rfl
@[simp] theorem flag_setX (s : State) (v : Byte) (f : Flag) : (s.setX v).flag f = s.flag f := rfl
@[simp] theorem flag_setY (s : State) (v : Byte) (f : Flag) : (s.setY v).flag f = s.flag f := rfl
@[simp] theorem flag_setPc (s : State) (v : Word) (f : Flag) : (s.setPc v).flag f = s.flag f := rfl
@[simp] theorem flag_setSp (s : State) (v : Word) (f : Flag) : (s.setSp v).flag f = s.flag f := rfl
@[simp] theorem flag_setP (s : State) (v : Byte) (f : Flag) : (s.setP v).flag f = flagOf f v := rfl

@[simp] theorem flag_setFlag (s : State) (f g : Flag) (b : Bool) :
    (s.setFlag f b).flag g = if g = f then b else s.flag g := by
  simp [State.setFlag, State.flag]

/-- A flag write is a write of `P` alone. -/
theorem setFlag_eq (s : State) (f : Flag) (b : Bool) : s.setFlag f b = s.setP (withFlag f b s.cpu.p) := rfl

/-- `SetNZ` is a write of `P` alone. -/
theorem setNZ_eq (s : State) (v : Byte) :
    s.setNZ v = s.setP (withFlag .Z (v == 0) (withFlag .N (v.getLsbD 7) s.cpu.p)) := rfl

@[simp] theorem flag_setNZ (s : State) (v : Byte) (f : Flag) :
    (s.setNZ v).flag f = if f = .Z then v == 0 else if f = .N then v.getLsbD 7 else s.flag f := by
  simp [State.setNZ]

/-- Forcing bit 5 (45 R298, R308) sets the reserved flag and keeps the other seven. -/
@[simp] theorem flagOf_or_reserved (p : Byte) (f : Flag) :
    flagOf f (p ||| 0x20) = if f = .R then true else flagOf f p := by
  cases f <;> simp [flagOf, Flag.bit]

end Sys2Proof.Machine
end

