-- ==== Sys2Proof/Laws/Forms.lean ====
section
/-! SUPPORT. The rows of a mnemonic, checked by computation: `HasForms` follows from a Boolean check over the decoder's
table, because the table and the rows of the instructions agree. -/

namespace Sys2Proof.Machine

/-- The mnemonic and mode that the decoder's table gives an opcode byte. -/
def rowAt (opcode : Byte) : Option (Mnemonic × AddressingMode) :=
  (opcodeEntry opcode).map fun t => ((templateRow t).name, (templateRow t).mode)

/-- Every entry of the decoder's table carries the opcode it stands at. -/
theorem entry_opcode : ∀ opcode : Byte, (opcodeEntry opcode).all fun t => (templateRow t).opcode == opcode := by
  decide

/-- The table has a mnemonic and mode at an opcode exactly when some instruction has that row. -/
theorem rowAt_iff {opcode : Byte} {name : Mnemonic} {mode : AddressingMode} : rowAt opcode = some (name, mode) ↔
    ∃ i : Instr, i.row.name = name ∧ i.row.opcode = opcode ∧ i.row.mode = mode := by
  constructor
  · intro h
    obtain ⟨t, ht, e⟩ := Option.map_eq_some_iff.mp h
    have ho := entry_opcode opcode
    rw [ht] at ho
    simp only [Option.all_some, beq_iff_eq] at ho
    cases e
    cases t with
    | none i => exact ⟨i, rfl, ho, rfl⟩
    | byte build => exact ⟨build 0, rfl, ho, rfl⟩
    | word build => exact ⟨build 0, rfl, ho, rfl⟩
  · rintro ⟨i, rfl, rfl, rfl⟩
    cases i <;> simp only [Instr.row] <;> rfl

/-- The Boolean check: every listed form is in the table, and every table row of the mnemonic is listed. -/
def hasFormsCheck (name : Mnemonic) (forms : List (Byte × AddressingMode)) : Bool :=
  (forms.all fun f => rowAt f.1 == some (name, f.2)) &&
    (List.range 16).all fun h => (List.range 16).all fun l =>
      match rowAt (BitVec.ofNat 8 (16 * h + l)) with
      | some (n, m) => n != name || forms.contains (BitVec.ofNat 8 (16 * h + l), m)
      | none => true

/-- The check decides `HasForms`. -/
theorem hasForms_of_check {name : Mnemonic} {forms : List (Byte × AddressingMode)}
    (h : hasFormsCheck name forms = true) : HasForms name forms := by
  unfold hasFormsCheck at h
  rw [Bool.and_eq_true, List.all_eq_true, List.all_eq_true] at h
  intro opcode mode
  rw [← rowAt_iff]
  constructor
  · intro hm
    simpa using h.1 _ hm
  · intro hr
    have hlt := opcode.isLt
    have hrow := List.all_eq_true.mp (h.2 (opcode.toNat / 16) (List.mem_range.mpr (by omega)))
      (opcode.toNat % 16) (List.mem_range.mpr (by omega))
    rw [Nat.div_add_mod, BitVec.ofNat_toNat, BitVec.setWidth_eq, hr] at hrow
    simpa using hrow

end Sys2Proof.Machine
end

