-- ==== Sys2Proof/Laws/Ops.lean ====
section
/-! SUPPORT. What the named operations can do: fetches, words, the stack primitives. -/

namespace Sys2Proof.Machine

/-- A fetch is a read at `PC` and an increment of `PC`. -/
theorem fetch_eq_ok {s t : State} {b : Byte} :
    fetch s = .ok b t ↔ ∃ u, memRead s.cpu.pc s = .ok b u ∧ t = u.setPc (s.cpu.pc + 1) := by
  unfold fetch
  constructor
  · intro h
    obtain ⟨v, u, h1, h2⟩ := bind_eq_ok.mp h
    cases h2
    exact ⟨u, h1, by rw [(memRead_effects h1).fields.1]⟩
  · rintro ⟨u, h1, rfl⟩
    rw [h1, bind_ok, (memRead_effects h1).fields.1]

/-- A fetch where memory holds a byte. -/
theorem fetch_storedByte {s : State} {b : Byte} (h : storedByte s s.cpu.pc = some b) :
    fetch s = .ok b (s.setPc (s.cpu.pc + 1)) :=
  fetch_eq_ok.mpr ⟨s, memRead_storedByte h, rfl⟩

@[simp] theorem storedByte_setPc (s : State) (v a : Word) : storedByte (s.setPc v) a = storedByte s a := rfl

/-- A register move of `PC` between reads, seen as one read effect and one move. -/
theorem fetch_effects {s t : State} {b : Byte} (h : fetch s = .ok b t) :
    ReadEffects (s.setPc t.cpu.pc) t ∧ t.cpu.pc = s.cpu.pc + 1 := by
  obtain ⟨u, h1, rfl⟩ := fetch_eq_ok.mp h
  have e := memRead_effects h1
  refine ⟨⟨?_, e.2⟩, rfl⟩
  have e1 := e.1
  conv => lhs; rw [e1]
  rfl

theorem connected_setPc {s : State} {v : Word} : Connected (s.setPc v) ↔ Connected s := Iff.rfl

theorem fetch_connected {s : State} (c : Connected s) : ∃ b t, fetch s = .ok b t ∧ Connected t := by
  obtain ⟨b, u, h⟩ := memRead_connected s.cpu.pc c
  exact ⟨b, _, fetch_eq_ok.mpr ⟨u, h, rfl⟩, (memRead_effects h).connected c⟩

/-- Fetches of bytes that memory holds: the bytes, and `PC` past them. -/
theorem fetchBytes_stored : ∀ (bs : List Byte) (s : State),
    (∀ k, k < bs.length → storedByte s (s.cpu.pc + BitVec.ofNat 16 k) = bs[k]?) →
    fetchBytes bs.length s = .ok bs (s.setPc (s.cpu.pc + BitVec.ofNat 16 bs.length))
  | [], s, _ => by
    show Result.ok [] s = .ok [] (s.setPc (s.cpu.pc + 0#16))
    rw [BitVec.add_zero]; rfl
  | b :: bs, s, h => by
    have h0 := h 0 (by simp)
    simp only [BitVec.add_zero, List.getElem?_cons_zero] at h0
    have ih := fetchBytes_stored bs (s.setPc (s.cpu.pc + 1)) fun k hk => by
      have := h (k + 1) (by simpa using hk)
      rw [List.getElem?_cons_succ] at this
      rw [← this]
      simp only [storedByte_setPc, setPc_cpu_pc]
      congr 1
      rw [BitVec.add_assoc]
      congr 1
      apply BitVec.eq_of_toNat_eq
      simp [BitVec.toNat_ofNat, Nat.add_comm]
    show (fetch s).bind _ = _
    rw [fetch_storedByte h0, bind_ok, ih, bind_ok]
    congr 1
    simp only [State.setPc, List.length_cons]
    congr 2
    rw [BitVec.add_assoc]
    congr 1
    apply BitVec.eq_of_toNat_eq
    simp [BitVec.toNat_ofNat, Nat.add_comm]

theorem readWord_effects {a w : Word} {s t : State} (h : readWord a s = .ok w t) : ReadEffects s t := by
  obtain ⟨lo, u, h1, h2⟩ := bind_eq_ok.mp h
  obtain ⟨hi, v, h3, h4⟩ := bind_eq_ok.mp h2
  cases h4
  exact (memRead_effects h1).trans (memRead_effects h3)

theorem readWord_connected (a : Word) {s : State} (c : Connected s) : ∃ w t, readWord a s = .ok w t := by
  obtain ⟨lo, u, h1⟩ := memRead_connected a c
  obtain ⟨hi, v, h2⟩ := memRead_connected (a + 1) ((memRead_effects h1).connected c)
  exact ⟨_, v, by unfold readWord; rw [h1, bind_ok, h2, bind_ok]⟩

/-- The word at two addresses of attached program ROM. -/
theorem readWord_rom {a : Word} (h : 0x8000 ≤ a.toNat) (h' : a.toNat < 0xFFFF) {s : State} {rom : PrgRom}
    (hr : s.config.prgRom = some rom) : readWord a s = .ok (romWord rom a.toNat) s := by
  have e : (a + 1).toNat = a.toNat + 1 := by bv_omega
  unfold readWord
  rw [memRead_rom h hr, bind_ok, memRead_rom (by omega) hr, bind_ok, e]
  rfl

theorem readPointer_effects {a w : Word} {s t : State} (h : readPointer a s = .ok w t) : ReadEffects s t := by
  obtain ⟨lo, u, h1, h2⟩ := bind_eq_ok.mp h
  obtain ⟨hi, v, h3, h4⟩ := bind_eq_ok.mp h2
  cases h4
  exact (memRead_effects h1).trans (memRead_effects h3)

theorem readPointer_connected (a : Word) {s : State} (c : Connected s) : ∃ w t, readPointer a s = .ok w t := by
  obtain ⟨lo, u, h1⟩ := memRead_connected a c
  obtain ⟨hi, v, h2⟩ := memRead_connected (pointerSuccessor u.config a) ((memRead_effects h1).connected c)
  exact ⟨_, v, by unfold readPointer; rw [h1, bind_ok, h2, bind_ok]⟩

/-- In page 1 the stack address is `SP` itself. -/
theorem stackAddress_toNat {sp : Word} (h : 0x0100 ≤ sp.toNat ∧ sp.toNat ≤ 0x01FF) : stackAddress sp = sp := by
  have split : sp.toNat = 2 ^ 8 * 1 ||| (sp.toNat - 256) := by
    rw [← Nat.two_pow_add_eq_or_of_lt (by omega)]; omega
  apply BitVec.eq_of_toNat_eq
  show sp.toNat ||| 2 ^ 8 * 1 = sp.toNat
  rw [split, Nat.or_comm, ← Nat.or_assoc, Nat.or_self]

/-- The stack page seen as working RAM. -/
theorem stack_offset {sp : Word} (h : 0x0100 ≤ sp.toNat ∧ sp.toNat ≤ 0x01FF) :
    (stackAddress sp).toNat < 0x2000 ∧ (stackAddress sp).toNat % 0x800 = sp.toNat := by
  rw [stackAddress_toNat h]
  omega

/-- A push with room: the byte at `SP`, and `SP` one lower (10 R34). -/
theorem push_room {s : State} (h : 0x0101 ≤ s.cpu.sp.toNat ∧ s.cpu.sp.toNat ≤ 0x01FF) (v : Byte) :
    push v s = .ok () { s with
      wram := setByte s.wram s.cpu.sp.toNat v
      cpu := { s.cpu with sp := s.cpu.sp - 1 } } := by
  obtain ⟨h1, h2⟩ := stack_offset (sp := s.cpu.sp) ⟨by omega, h.2⟩
  have : ¬ ((s.cpu.sp.toNat : Int) - 1 < 0x0100) := by omega
  unfold push
  rw [memWrite_wram h1, bind_ok, h2]
  simp only [this, if_false]
  rfl

/-- A push at the bottom of the page faults (60 R475). -/
theorem push_full {s : State} (h : s.cpu.sp = 0x0100) (v : Byte) :
    push v s = .fault (.stackPointerOverflow 0x00FF) := by
  have h1 : (stackAddress s.cpu.sp).toNat < 0x2000 := by rw [h]; decide
  unfold push
  rw [memWrite_wram h1, bind_ok]
  simp only [h]
  rfl

/-- A pop with a byte above: the byte at `SP + 1`, and `SP` one higher (10 R35). -/
theorem pop_room {s : State} (h : 0x0100 ≤ s.cpu.sp.toNat ∧ s.cpu.sp.toNat ≤ 0x01FE) :
    pop s = .ok (byteAt s.wram (s.cpu.sp.toNat + 1)) (s.setSp (s.cpu.sp + 1)) := by
  have e : (s.cpu.sp + 1).toNat = s.cpu.sp.toNat + 1 := by bv_omega
  obtain ⟨h1, h2⟩ := stack_offset (sp := s.cpu.sp + 1) (by omega)
  have : ¬ (s.cpu.sp.toNat + 1 > 0x01FF) := by omega
  unfold pop
  simp only [this, if_false, setSp_cpu_sp]
  rw [memRead_wram h1, h2, e]
  rfl

/-- A pop at the top of the page faults before any read (60 R476). -/
theorem pop_empty {s : State} (h : s.cpu.sp = 0x01FF) : pop s = .fault (.stackPointerUnderflow 0x0200) := by
  unfold pop
  simp only [h]
  rfl

/-- A push changes `SP` and what stands behind the stack address. -/
theorem push_effects {v : Byte} {s t : State} (h : push v s = .ok () t) :
    ∃ u, memWrite (stackAddress s.cpu.sp) v s = .ok () u ∧ t = u.setSp (s.cpu.sp - 1) ∧
      0x0101 ≤ s.cpu.sp.toNat := by
  obtain ⟨⟨⟩, u, h1, h2⟩ := bind_eq_ok.mp h
  have e : u.cpu = s.cpu := (memWrite_effects h1).1.fields.1
  split at h2
  · cases h2
  · cases h2
    exact ⟨u, h1, by rw [e], by rw [e] at *; omega⟩

/-- A pop changes `SP`, and reads at the stack address after that. -/
theorem pop_effects {v : Byte} {s t : State} (h : pop s = .ok v t) :
    ReadEffects (s.setSp (s.cpu.sp + 1)) t ∧ s.cpu.sp.toNat ≤ 0x01FE := by
  unfold pop at h
  split at h
  · cases h
  · exact ⟨memRead_effects h, by omega⟩

theorem pushWord_eq_ok {w : Word} {s t : State} :
    pushWord w s = .ok () t ↔ ∃ u, push (highByte w) s = .ok () u ∧ push (lowByte w) u = .ok () t := by
  unfold pushWord
  rw [bind_eq_ok]
  exact ⟨fun ⟨⟨⟩, u, h⟩ => ⟨u, h⟩, fun ⟨u, h⟩ => ⟨(), u, h⟩⟩

/-- A word pushed with room: high byte at `SP`, low byte below it, `SP` two lower (10 R36). -/
theorem pushWord_room {s : State} (h : 0x0102 ≤ s.cpu.sp.toNat ∧ s.cpu.sp.toNat ≤ 0x01FF) (w : Word) :
    pushWord w s = .ok () { s with
      wram := setByte (setByte s.wram s.cpu.sp.toNat (highByte w)) (s.cpu.sp.toNat - 1) (lowByte w)
      cpu := { s.cpu with sp := s.cpu.sp - 2 } } := by
  have e : (s.cpu.sp - 1).toNat = s.cpu.sp.toNat - 1 := by bv_omega
  refine pushWord_eq_ok.mpr ⟨_, push_room ⟨by omega, h.2⟩ _, ?_⟩
  rw [push_room]
  · simp only [e]
    congr 3
    bv_omega
  · simp only [e]; omega

/-- A word popped: low byte at `SP + 1`, high byte above it, `SP` two higher (10 R37). -/
theorem popWord_room {s : State} (h : 0x0100 ≤ s.cpu.sp.toNat ∧ s.cpu.sp.toNat ≤ 0x01FD) :
    popWord s = .ok (wramWord s (s.cpu.sp.toNat + 1)) (s.setSp (s.cpu.sp + 2)) := by
  have e : (s.cpu.sp + 1).toNat = s.cpu.sp.toNat + 1 := by bv_omega
  unfold popWord
  rw [pop_room ⟨h.1, by omega⟩, bind_ok, pop_room (by simp only [setSp_cpu_sp, e]; omega), bind_ok]
  simp only [setSp_cpu_sp, setSp_wram, e]
  congr 1
  simp only [State.setSp]
  congr 2
  bv_omega

/-- The frame of an interrupt or BRK with room for it (60 R484): `PC` high, `PC` low, `P`, `SP` three lower. -/
theorem pushFrame_room {s : State} (h : 0x0103 ≤ s.cpu.sp.toNat ∧ s.cpu.sp.toNat ≤ 0x01FF) :
    pushFrame s = .ok () { s with
      wram := setByte (setByte (setByte s.wram s.cpu.sp.toNat (highByte s.cpu.pc))
        (s.cpu.sp.toNat - 1) (lowByte s.cpu.pc)) (s.cpu.sp.toNat - 2) s.cpu.p
      cpu := { s.cpu with sp := s.cpu.sp - 3 } } := by
  have e : (s.cpu.sp - 2).toNat = s.cpu.sp.toNat - 2 := by bv_omega
  unfold pushFrame
  rw [pushWord_room ⟨by omega, h.2⟩, bind_ok, push_room]
  · simp only [e]
    congr 3
    bv_omega
  · simp only [e]; omega

/-- The frame faults where the page has no room for three bytes (60 R475). -/
theorem pushFrame_full {s : State} (h : 0x0100 ≤ s.cpu.sp.toNat ∧ s.cpu.sp.toNat ≤ 0x0102) :
    pushFrame s = .fault (.stackPointerOverflow 0x00FF) := by
  have : s.cpu.sp = 0x0100 ∨ s.cpu.sp = 0x0101 ∨ s.cpu.sp = 0x0102 := by bv_omega
  unfold pushFrame pushWord
  rcases this with h | h | h
  · rw [push_full h]; rfl
  · rw [push_room (by rw [h]; decide), bind_ok, push_full (by simp [h])]; rfl
  · rw [push_room (by rw [h]; decide), bind_ok, push_room (by simp [h]), bind_ok, push_full (by simp [h])]

/-- Taking an interrupt with room for the frame and program ROM attached (60 R484, R485). -/
theorem takeInterrupt_room {s : State} {rom : PrgRom} (h : 0x0103 ≤ s.cpu.sp.toNat ∧ s.cpu.sp.toNat ≤ 0x01FF)
    (hr : s.config.prgRom = some rom) {v : Word} (hv : 0x8000 ≤ v.toNat ∧ v.toNat < 0xFFFF) :
    takeInterrupt v s = .ok () { s with
      wram := setByte (setByte (setByte s.wram s.cpu.sp.toNat (highByte s.cpu.pc))
        (s.cpu.sp.toNat - 1) (lowByte s.cpu.pc)) (s.cpu.sp.toNat - 2) (withFlag .B false s.cpu.p)
      cpu := { s.cpu with
        pc := romWord rom v.toNat
        sp := s.cpu.sp - 3
        p := withFlag .I true (withFlag .B false s.cpu.p) } } := by
  unfold takeInterrupt
  rw [pushFrame_room (s := s.setFlag .B false) h, bind_ok]
  simp only [setFlag_eq]
  have hw : ∀ u : State, u.config = s.config → readWord v u = .ok (romWord rom v.toNat) u :=
    fun u hu => readWord_rom hv.1 hv.2 (by rw [hu]; exact hr)
  rw [hw _ (by rfl), bind_ok]
  rfl

/-- Returning from an interrupt with a frame on the stack (60 R488). -/
theorem returnFromInterrupt_room {s : State} (h : 0x0100 ≤ s.cpu.sp.toNat ∧ s.cpu.sp.toNat ≤ 0x01FC) :
    returnFromInterrupt s = .ok () { s with
      cpu := { s.cpu with
        pc := wramWord s (s.cpu.sp.toNat + 2)
        sp := s.cpu.sp + 3
        p := byteAt s.wram (s.cpu.sp.toNat + 1) ||| 0x20 } } := by
  have e : (s.cpu.sp + 1).toNat = s.cpu.sp.toNat + 1 := by bv_omega
  unfold returnFromInterrupt
  rw [pop_room ⟨h.1, by omega⟩, bind_ok, popWord_room (by simp only [setP_cpu_sp, setSp_cpu_sp, e]; omega), bind_ok]
  have e3 : s.cpu.sp + 1 + 2 = s.cpu.sp + 3 := by bv_omega
  simp only [State.setPc, State.setSp, State.setP, wramWord, e, e3]

end Sys2Proof.Machine
end

