-- ==== Sys2Proof/Laws/Operands.lean ====
section
/-! SUPPORT. What resolving, loading and storing an operand can do. -/

namespace Sys2Proof.Machine

theorem resolve_indirect (p : Word) (s : State) :
    resolve (.indirectAbsolute p) s = (readPointer p s).bind fun a s => .ok (.address a) s := rfl

theorem resolve_preIndexed (d : Byte) (s : State) :
    resolve (.preIndexedIndirect d) s =
      (readPointer (zeroPageAddress (d + s.cpu.x)) s).bind fun a s => .ok (.address a) s := rfl

theorem resolve_postIndexed (d : Byte) (s : State) :
    resolve (.postIndexedIndirect d) s =
      (readPointer (zeroPageAddress d) s).bind fun b s => .ok (.address (indexedAddress b s.cpu.y)) s := rfl

/-- Resolving reads pointers and changes nothing else (40 R167). -/
theorem resolve_effects {form : Form} {op : Operand} {s t : State} (h : resolve form s = .ok op t) :
    ReadEffects s t := by
  cases form
  case indirectAbsolute =>
    obtain ⟨a, u, h1, h2⟩ := bind_eq_ok.mp h; cases h2; exact readPointer_effects h1
  case preIndexedIndirect =>
    obtain ⟨a, u, h1, h2⟩ := bind_eq_ok.mp h; cases h2; exact readPointer_effects h1
  case postIndexedIndirect =>
    obtain ⟨a, u, h1, h2⟩ := bind_eq_ok.mp h; cases h2; exact readPointer_effects h1
  all_goals cases h; exact .refl _

/-- With both resources attached every form resolves. -/
theorem resolve_connected (form : Form) {s : State} (c : Connected s) : ∃ op t, resolve form s = .ok op t := by
  cases form
  case indirectAbsolute p =>
    obtain ⟨w, t, h⟩ := readPointer_connected p c
    exact ⟨_, t, by rw [resolve_indirect, h, bind_ok]⟩
  case preIndexedIndirect d =>
    obtain ⟨w, t, h⟩ := readPointer_connected (zeroPageAddress (d + s.cpu.x)) c
    exact ⟨_, t, by rw [resolve_preIndexed, h, bind_ok]⟩
  case postIndexedIndirect d =>
    obtain ⟨w, t, h⟩ := readPointer_connected (zeroPageAddress d) c
    exact ⟨_, t, by rw [resolve_postIndexed, h, bind_ok]⟩
  all_goals exact ⟨_, _, rfl⟩

/-- The forms that resolve to an address. -/
def Form.isAddress : Form → Bool
  | .implied | .accumulator | .immediate _ => false
  | _ => true

/-- An address form resolves to an address (40 R167). -/
theorem resolve_address {form : Form} {op : Operand} {s t : State} (h : resolve form s = .ok op t)
    (hf : form.isAddress = true) : ∃ a, op = .address a := by
  cases form
  case implied => cases hf
  case accumulator => cases hf
  case immediate => cases hf
  case indirectAbsolute => obtain ⟨a, u, h1, h2⟩ := bind_eq_ok.mp h; cases h2; exact ⟨_, rfl⟩
  case preIndexedIndirect => obtain ⟨a, u, h1, h2⟩ := bind_eq_ok.mp h; cases h2; exact ⟨_, rfl⟩
  case postIndexedIndirect => obtain ⟨a, u, h1, h2⟩ := bind_eq_ok.mp h; cases h2; exact ⟨_, rfl⟩
  all_goals cases h; exact ⟨_, rfl⟩

theorem load_effects {op : Operand} {s t : State} {v : Byte} (h : load op s = .ok v t) : ReadEffects s t := by
  cases op
  case address => exact memRead_effects h
  all_goals cases h; exact .refl _

theorem load_connected (op : Operand) {s : State} (c : Connected s) : ∃ v t, load op s = .ok v t := by
  cases op
  case address a => exact memRead_connected a c
  all_goals exact ⟨_, _, rfl⟩

theorem operandByte_effects {form : Form} {s t : State} {v : Byte} (h : operandByte form s = .ok v t) :
    ReadEffects s t := by
  obtain ⟨op, u, h1, h2⟩ := bind_eq_ok.mp h
  exact (resolve_effects h1).trans (load_effects h2)

/-- With both resources attached every form yields its byte. -/
theorem operandByte_connected (form : Form) {s : State} (c : Connected s) : ∃ v t, operandByte form s = .ok v t := by
  obtain ⟨op, u, h1⟩ := resolve_connected form c
  obtain ⟨v, t, h2⟩ := load_connected op ((resolve_effects h1).connected c)
  exact ⟨v, t, by unfold operandByte; rw [h1, bind_ok, h2]⟩

/-- An instruction that only reads its operand. -/
theorem readInstr_eq {form : Form} {effect : Byte → State → State} {s t : State} {m : Byte}
    (h : operandByte form s = .ok m t) : readInstr form effect s = .ok () (effect m t) := by
  unfold readInstr; rw [h, bind_ok]

/-- A store at an address: what the form resolves to is where the byte goes. -/
theorem storeInstr_eq {form : Form} {source : State → Byte} {s t : State} {a : Word}
    (h : resolve form s = .ok (.address a) t) : storeInstr form source s = memWrite a (source t) t := by
  unfold storeInstr; rw [h, bind_ok]; rfl

/-- A read-modify-write at an address: one read, one write at the same place. -/
theorem modifyInstr_eq {form : Form} {result : Byte → State → Byte} {early late : Byte → State → State}
    {s t u : State} {a : Word} {m : Byte} (h : resolve form s = .ok (.address a) t) (hm : memRead a t = .ok m u) :
    modifyInstr form result early late s =
      (memWrite a (result m u) (early m u)).bind fun _ w => .ok () (late (result m u) w) := by
  unfold modifyInstr
  rw [h, bind_ok]
  show (memRead a t).bind _ = _
  rw [hm, bind_ok]
  rfl

/-- A write neither sees nor touches the CPU registers. -/
theorem memWrite_cpu (a : Word) (v : Byte) (s : State) (c : Cpu) :
    memWrite a v { s with cpu := c } = (memWrite a v s).mapState fun t => { t with cpu := c } := by
  have bus : ∀ b, ppuBusWrite b v { s with cpu := c } =
      (ppuBusWrite b v s).mapState fun t => { t with cpu := c } := by
    intro b
    unfold ppuBusWrite
    dsimp only
    cases s.chr <;> dsimp only <;> repeat' split
    all_goals rfl
  have port : ∀ p, ppuPortWrite p v { s with cpu := c } =
      (ppuPortWrite p v s).mapState fun t => { t with cpu := c } := by
    intro p
    unfold ppuPortWrite
    split
    all_goals first
      | rfl
      | (unfold writeScroll; dsimp only; split <;> rfl)
      | (unfold writeVramAddress; dsimp only; split <;> rfl)
      | (unfold writeVramData
         dsimp only
         rw [bus]
         cases ppuBusWrite s.ppu.videoRamAddress v s <;> rfl)
  unfold memWrite busWrite
  dsimp only
  cases s.config.prgRom <;> dsimp only <;> repeat' split
  all_goals first | exact port _ | rfl

/-- A status write before a bus write is a status write after it. -/
theorem memWrite_setP (a : Word) (v p : Byte) (s : State) :
    memWrite a v (s.setP p) = (memWrite a v s).mapState fun t => t.setP p := by
  have h := memWrite_cpu a v s { s.cpu with p := p }
  show memWrite a v { s with cpu := { s.cpu with p := p } } = _
  rw [h]
  cases hw : memWrite a v s with
  | fault f => rfl
  | ok w t =>
    cases w
    have e : t.cpu = s.cpu := (memWrite_effects hw).1.fields.1
    show Result.ok () _ = Result.ok () _
    simp only [State.setP, e]

/-- A status write before a bus read is a status write after it. -/
theorem memRead_setP (a : Word) (p : Byte) (s : State) :
    memRead a (s.setP p) = (memRead a s).mapState fun t => t.setP p := by
  show memRead a { s with cpu := { s.cpu with p := p } } = _
  rw [memRead_cpu]
  cases hw : memRead a s with
  | fault f => rfl
  | ok w t =>
    have e : t.cpu = s.cpu := (memRead_effects hw).fields.1
    show Result.ok w _ = Result.ok w _
    simp only [State.setP, e]

theorem readPointer_setP (a : Word) (p : Byte) (s : State) :
    readPointer a (s.setP p) = (readPointer a s).mapState fun t => t.setP p := by
  unfold readPointer
  rw [memRead_setP]
  cases memRead a s with
  | fault f => rfl
  | ok lo t =>
    rw [mapState_ok, bind_ok, bind_ok]
    show (memRead (pointerSuccessor t.config a) (t.setP p)).bind _ = _
    rw [memRead_setP]
    cases memRead (pointerSuccessor t.config a) t <;> rfl

/-- Operand resolution does not look at the status register. -/
theorem resolve_setP (form : Form) (p : Byte) (s : State) :
    resolve form (s.setP p) = (resolve form s).mapState fun t => t.setP p := by
  cases form
  case indirectAbsolute a =>
    rw [resolve_indirect, resolve_indirect, readPointer_setP]
    cases readPointer a s <;> rfl
  case preIndexedIndirect d =>
    rw [resolve_preIndexed, resolve_preIndexed, readPointer_setP]
    show Result.bind (Result.mapState _ (readPointer (zeroPageAddress (d + s.cpu.x)) s)) _ = _
    cases readPointer (zeroPageAddress (d + s.cpu.x)) s <;> rfl
  case postIndexedIndirect d =>
    rw [resolve_postIndexed, resolve_postIndexed, readPointer_setP]
    cases readPointer (zeroPageAddress d) s <;> rfl
  all_goals rfl

/-- Loading an operand does not look at the status register. -/
theorem operandByte_setP (form : Form) (p : Byte) (s : State) :
    operandByte form (s.setP p) = (operandByte form s).mapState fun t => t.setP p := by
  unfold operandByte
  rw [resolve_setP]
  cases resolve form s with
  | fault f => rfl
  | ok op t =>
    cases op
    case address a => exact memRead_setP a p t
    all_goals rfl

end Sys2Proof.Machine
end

