-- ==== Sys2Proof/Laws/Instructions.lean ====
section
/-! SUPPORT. `exec` as one operation for each mnemonic over the operand form of the instruction: what statements about a
mnemonic unfold to, once for all its rows. -/

namespace Sys2Proof.Machine

/-- The operation of a mnemonic on an operand form. The form is ignored where the mnemonic has none. -/
def opOf : Mnemonic → Form → State → Result Unit
  | .LDA, form, s => opLda form s
  | .LDX, form, s => opLdx form s
  | .LDY, form, s => opLdy form s
  | .STA, form, s => opSta form s
  | .STX, form, s => opStx form s
  | .STY, form, s => opSty form s
  | .TAX, _, s => opTax s
  | .TAY, _, s => opTay s
  | .TXA, _, s => opTxa s
  | .TYA, _, s => opTya s
  | .TSX, _, s => opTsx s
  | .TXS, _, s => opTxs s
  | .ADC, form, s => opAdc form s
  | .SBC, form, s => opSbc form s
  | .CMP, form, s => opCmp form s
  | .CPX, form, s => opCpx form s
  | .CPY, form, s => opCpy form s
  | .INC, form, s => opInc form s
  | .DEC, form, s => opDec form s
  | .INX, _, s => opInx s
  | .INY, _, s => opIny s
  | .DEX, _, s => opDex s
  | .DEY, _, s => opDey s
  | .AND, form, s => opAnd form s
  | .ORA, form, s => opOra form s
  | .EOR, form, s => opEor form s
  | .BIT, form, s => opBit form s
  | .ASL, form, s => opAsl form s
  | .LSR, form, s => opLsr form s
  | .ROL, form, s => opRol form s
  | .ROR, form, s => opRor form s
  | .BCC, .relative disp, s => opBcc disp s
  | .BCS, .relative disp, s => opBcs disp s
  | .BEQ, .relative disp, s => opBeq disp s
  | .BNE, .relative disp, s => opBne disp s
  | .BMI, .relative disp, s => opBmi disp s
  | .BPL, .relative disp, s => opBpl disp s
  | .BVC, .relative disp, s => opBvc disp s
  | .BVS, .relative disp, s => opBvs disp s
  | .JMP, form, s => opJmp form s
  | .JSR, .absolute a16, s => opJsr a16 s
  | .RTS, _, s => opRts s
  | .PHA, _, s => opPha s
  | .PHP, _, s => opPhp s
  | .PLA, _, s => opPla s
  | .PLP, _, s => opPlp s
  | .CLC, _, s => opClc s
  | .SEC, _, s => opSec s
  | .CLI, _, s => opCli s
  | .SEI, _, s => opSei s
  | .CLV, _, s => opClv s
  | .CLD, _, s => opCld s
  | .SED, _, s => opSed s
  | .NOP, _, s => opNop s
  | .BRK, _, s => opBrk s
  | .RTI, _, s => opRti s
  | .LAX, form, s => opLax form s
  | .SAX, form, s => opSax form s
  | .DCP, form, s => opDcp form s
  | .ISB, form, s => opIsb form s
  | .SLO, form, s => opSlo form s
  | .SRE, form, s => opSre form s
  | .RLA, form, s => opRla form s
  | .RRA, form, s => opRra form s
  | .BCC, _, s => .ok () s
  | .BCS, _, s => .ok () s
  | .BEQ, _, s => .ok () s
  | .BNE, _, s => .ok () s
  | .BMI, _, s => .ok () s
  | .BPL, _, s => .ok () s
  | .BVC, _, s => .ok () s
  | .BVS, _, s => .ok () s
  | .JSR, _, s => .ok () s

/-- `exec` is the operation of the mnemonic on the form of the instruction. -/
theorem exec_eq (i : Instr) (s : State) : exec i s = (opOf i.row.name (formOf i) s).outcome := by
  cases i <;> rfl

/-- The rows of a mnemonic, through its name alone. -/
theorem exec_of_name {i : Instr} {name : Mnemonic} (h : i.row.name = name) (s : State) :
    exec i s = (opOf name (formOf i) s).outcome := by rw [exec_eq, h]

/-- No instruction is refused. -/
theorem exec_ne_refused (i : Instr) (s : State) (r : Refusal) : exec i s ≠ .refused r := by
  rw [exec_eq]; exact outcome_ne_refused _ _

/-- Mnemonics whose operand is always an address in memory. -/
def operandIsAddress : Mnemonic → Bool
  | .STA | .STX | .STY | .INC | .DEC | .BIT | .JMP | .LAX | .SAX | .DCP | .ISB | .SLO | .SRE | .RLA | .RRA => true
  | _ => false

/-- Every row of those mnemonics has an address form. -/
theorem formOf_isAddress {i : Instr} (h : operandIsAddress i.row.name = true) : (formOf i).isAddress = true := by
  cases i <;> first | rfl | cases h

/-- A shift or rotate row is the accumulator row or has an address form. -/
theorem formOf_shift {i : Instr}
    (h : i.row.name = .ASL ∨ i.row.name = .LSR ∨ i.row.name = .ROL ∨ i.row.name = .ROR) :
    formOf i = .accumulator ∨ (formOf i).isAddress = true := by
  cases i <;> first | exact .inl rfl | exact .inr rfl | (rcases h with h | h | h | h <;> cases h)

/-- The mode of a row is the mode of its form. -/
def Form.mode : Form → AddressingMode
  | .implied => .implied
  | .accumulator => .accumulator
  | .immediate _ => .immediate
  | .zeroPage _ => .zeroPage
  | .zeroPageX _ => .zeroPageX
  | .zeroPageY _ => .zeroPageY
  | .absolute _ => .absolute
  | .absoluteX _ => .absoluteX
  | .absoluteY _ => .absoluteY
  | .indirectAbsolute _ => .indirectAbsolute
  | .preIndexedIndirect _ => .preIndexedIndirect
  | .postIndexedIndirect _ => .postIndexedIndirect
  | .relative _ => .relative

theorem formOf_mode (i : Instr) : (formOf i).mode = i.row.mode := by cases i <;> rfl

end Sys2Proof.Machine
end

