-- ==== Sys2Proof/Laws/Moves.lean ====
section
/-! SUPPORT. What an instruction can do, said once: a sequence of register writes, bus reads and bus writes. A property
that these three keep is kept by every instruction, by interrupt entry and by reset. The parts of a step, inverted. -/

namespace Sys2Proof.Machine

/-- `t` is reached from `s` by CPU register writes, CPU-bus reads and CPU-bus writes. -/
inductive Moves : State → State → Prop where
  | refl (s : State) : Moves s s
  | cpu {s t : State} (h : Moves s t) (c : Cpu) : Moves s { t with cpu := c }
  | read {s t u : State} (h : Moves s t) {a : Word} {v : Byte} (r : memRead a t = .ok v u) : Moves s u
  | write {s t u : State} (h : Moves s t) {a : Word} {v : Byte} (w : memWrite a v t = .ok () u) : Moves s u

theorem Moves.trans {s t u : State} (h : Moves s t) (k : Moves t u) : Moves s u := by
  induction k with
  | refl => exact h
  | cpu _ c ih => exact ih.cpu c
  | read _ r ih => exact ih.read r
  | write _ w ih => exact ih.write w

/-- A property that register writes, reads and writes keep holds after all of them. -/
theorem Moves.keeps {P : State → Prop} (hc : ∀ s c, P s → P { s with cpu := c })
    (hr : ∀ a s v t, memRead a s = .ok v t → P s → P t)
    (hw : ∀ a v s t, memWrite a v s = .ok () t → P s → P t) {s t : State} (h : Moves s t) (p : P s) : P t := by
  induction h with
  | refl => exact p
  | cpu _ c ih => exact hc _ c ih
  | read _ r ih => exact hr _ _ _ _ r ih
  | write _ w ih => exact hw _ _ _ _ w ih

/-- An operation that makes only such moves. -/
def Moving {α : Type} (op : State → Result α) : Prop := ∀ s v t, op s = .ok v t → Moves s t

theorem moving_ok {α : Type} {v : State → α} {f : State → State} (h : ∀ s, Moves s (f s)) :
    Moving fun s => .ok (v s) (f s) := fun s _ _ e => by cases e; exact h s

theorem moving_cpu {α : Type} {v : State → α} {c : State → Cpu} :
    Moving fun s => .ok (v s) { s with cpu := c s } := moving_ok fun s => (Moves.refl s).cpu _

theorem moving_pure {α : Type} {v : State → α} : Moving fun s => .ok (v s) s := moving_ok Moves.refl

theorem moving_bind {α β : Type} {op : State → Result α} {k : α → State → Result β} (h : Moving op)
    (hk : ∀ v, Moving (k v)) : Moving fun s => (op s).bind k := fun s w t e => by
  obtain ⟨v, u, h1, h2⟩ := bind_eq_ok.mp e
  exact (h s v u h1).trans (hk v u w t h2)

theorem moving_ite {α : Type} {c : State → Prop} [∀ s, Decidable (c s)] {f g : State → Result α} (hf : Moving f)
    (hg : Moving g) : Moving fun s => if c s then f s else g s := fun s w t e => by
  by_cases h : c s
  · exact hf s w t (by simpa [h] using e)
  · exact hg s w t (by simpa [h] using e)

theorem moving_fault {α : Type} {f : State → Fault} : Moving fun s => (.fault (f s) : Result α) :=
  fun _ _ _ e => by cases e

/-- An operation after a register write. -/
theorem moving_after {α : Type} {op : State → Result α} {c : State → Cpu} (h : Moving op) :
    Moving fun s => op { s with cpu := c s } := fun s w t e => ((Moves.refl s).cpu _).trans (h _ w t e)

/-- An operation that first reads the state for a parameter. -/
theorem moving_param {α β : Type} {p : State → β} {op : β → State → Result α} (h : ∀ b, Moving (op b)) :
    Moving fun s => op (p s) s := fun s w t e => h (p s) s w t e

theorem moving_memRead (a : Word) : Moving (memRead a) := fun s _ _ e => (Moves.refl s).read e

theorem moving_memWrite (a : Word) (v : Byte) : Moving (memWrite a v) := fun s _ _ e => (Moves.refl s).write e

theorem moving_fetch : Moving fetch :=
  moving_bind (moving_param (p := fun s => s.cpu.pc) moving_memRead) fun _ => moving_cpu

theorem moving_fetchWord : Moving fetchWord :=
  moving_bind moving_fetch fun _ => moving_bind moving_fetch fun _ => moving_pure

theorem moving_readWord (a : Word) : Moving (readWord a) :=
  moving_bind (moving_memRead a) fun _ => moving_bind (moving_memRead _) fun _ => moving_pure

theorem moving_readPointer (a : Word) : Moving (readPointer a) :=
  moving_bind (moving_memRead a) fun _ =>
    moving_bind (moving_param (p := fun s => pointerSuccessor s.config a) moving_memRead) fun _ => moving_pure

theorem moving_push (v : Byte) : Moving (push v) :=
  moving_bind (moving_param (p := fun s => stackAddress s.cpu.sp) fun a => moving_memWrite a v) fun _ =>
    moving_ite (c := fun s => (s.cpu.sp.toNat : Int) - 1 < 0x0100) moving_fault moving_cpu

theorem moving_pop : Moving pop :=
  moving_ite (c := fun s => s.cpu.sp.toNat + 1 > 0x01FF) moving_fault
    (moving_after (op := fun t => memRead (stackAddress t.cpu.sp) t)
      (moving_param (p := fun s => stackAddress s.cpu.sp) moving_memRead))

theorem moving_pushWord (w : Word) : Moving (pushWord w) := moving_bind (moving_push _) fun _ => moving_push _

theorem moving_popWord : Moving popWord :=
  moving_bind moving_pop fun _ => moving_bind moving_pop fun _ => moving_pure

theorem moving_pushFrame : Moving pushFrame :=
  moving_bind (moving_param (p := fun s => s.cpu.pc) moving_pushWord) fun _ =>
    moving_param (p := fun s => s.cpu.p) moving_push

theorem moving_takeInterrupt (vector : Word) : Moving (takeInterrupt vector) :=
  moving_bind (moving_after moving_pushFrame) fun _ =>
    moving_bind (moving_after (moving_readWord vector)) fun _ => moving_cpu

theorem moving_returnFromInterrupt : Moving returnFromInterrupt :=
  moving_bind moving_pop fun _ => moving_bind (moving_after moving_popWord) fun _ => moving_cpu

theorem moving_cpuReset : Moving cpuReset :=
  moving_after (op := fun t => (readWord resetVector t).bind fun target s => .ok () (s.setPc target))
    (moving_bind (moving_readWord resetVector) fun _ => moving_cpu)

theorem moving_resolve (form : Form) : Moving (resolve form) := by
  cases form
  case indirectAbsolute p => exact moving_bind (moving_readPointer p) fun _ => moving_pure
  case preIndexedIndirect d =>
    exact moving_bind (moving_param (p := fun s => zeroPageAddress (d + s.cpu.x)) moving_readPointer)
      fun _ => moving_pure
  case postIndexedIndirect d => exact moving_bind (moving_readPointer _) fun _ => moving_pure
  all_goals exact moving_pure

theorem moving_load (op : Operand) : Moving (load op) := by
  cases op
  case address a => exact moving_memRead a
  all_goals exact moving_pure

theorem moving_storeBack (op : Operand) (v : Byte) : Moving (storeBack op v) := by
  cases op
  case address a => exact moving_memWrite a v
  case none => exact moving_cpu
  case value => exact moving_pure

theorem moving_operandByte (form : Form) : Moving (operandByte form) :=
  moving_bind (moving_resolve form) moving_load

/-- A state transformation that writes CPU registers only. -/
def CpuOnly (f : State → State) : Prop := ∀ s, f s = { s with cpu := (f s).cpu }

theorem cpuOnly_addWithCarry (m : Byte) : CpuOnly (addWithCarry m) := fun _ => rfl
theorem cpuOnly_subtractWithBorrow (m : Byte) : CpuOnly (subtractWithBorrow m) := fun _ => rfl
theorem cpuOnly_bitTest (m : Byte) : CpuOnly (bitTest m) := fun _ => rfl

theorem moving_readInstr (form : Form) {effect : Byte → State → State} (h : ∀ m, CpuOnly (effect m)) :
    Moving (readInstr form effect) :=
  moving_bind (moving_operandByte form) fun m => moving_ok fun s => by rw [h m s]; exact (Moves.refl s).cpu _

theorem moving_storeInstr (form : Form) (source : State → Byte) : Moving (storeInstr form source) :=
  moving_bind (moving_resolve form) fun op => moving_param (p := source) (moving_storeBack op)

theorem moving_modifyInstr (form : Form) {result : Byte → State → Byte} {early late : Byte → State → State}
    (he : ∀ m, CpuOnly (early m)) (hl : ∀ m, CpuOnly (late m)) : Moving (modifyInstr form result early late) :=
  moving_bind (moving_resolve form) fun op => moving_bind (moving_load op) fun m => fun s v t e => by
    obtain ⟨⟨⟩, u, h1, h2⟩ := bind_eq_ok.mp e
    cases h2
    rw [he m s] at h1
    have hu : Moves s u := ((Moves.refl s).cpu _).trans (moving_storeBack op _ _ _ _ h1)
    rw [hl (result m s) u]
    exact hu.cpu _

theorem moving_shiftInstr (form : Form) (shift : Byte → Bool → Shifted) {late : Byte → State → State}
    (hl : ∀ m, CpuOnly (late m)) : Moving (shiftInstr form shift late) :=
  moving_modifyInstr form (fun _ _ => rfl) hl

theorem moving_jumpInstr (form : Form) : Moving (jumpInstr form) :=
  moving_bind (moving_resolve form) fun op => by
    cases op
    case address => exact moving_cpu
    all_goals exact moving_pure

theorem moving_branchInstr (disp : Int) (taken : State → Bool) : Moving (branchInstr disp taken) :=
  moving_ite (c := fun s => taken s = true) (moving_jumpInstr _) moving_pure

theorem moving_brk : Moving opBrk := fun s v t e => by
  obtain ⟨⟨⟩, u, h1, h2⟩ := bind_eq_ok.mp e
  have hu : Moves s u := ((Moves.refl s).cpu _).trans (moving_pushFrame _ _ _ h1)
  split at h2
  · cases h2; exact hu.cpu _
  · obtain ⟨w, x, h3, h4⟩ := bind_eq_ok.mp h2
    cases h4
    exact (hu.trans (moving_readWord irqVector u w x h3)).cpu _

/-- Every operation of a mnemonic makes only such moves. -/
theorem moving_opOf (name : Mnemonic) (form : Form) : Moving (opOf name form) := by
  cases name
  case JSR =>
    cases form
    case absolute a => exact moving_bind (moving_param (p := fun s => s.cpu.pc - 1) moving_pushWord) fun _ => moving_cpu
    all_goals exact moving_pure
  case BRK => exact moving_brk
  case RTI => exact moving_returnFromInterrupt
  case RTS => exact moving_bind moving_popWord fun _ => moving_cpu
  case PHA => exact moving_param (p := fun s => s.cpu.a) moving_push
  case PHP =>
    exact moving_after (c := fun s => (s.setFlag .B true).cpu) (op := fun t => push t.cpu.p t)
      (moving_param (p := fun s => s.cpu.p) moving_push)
  case PLA => exact moving_bind moving_pop fun _ => moving_cpu
  case PLP => exact moving_bind moving_pop fun _ => moving_cpu
  case JMP => exact moving_jumpInstr form
  case NOP => exact moving_pure
  case INC =>
    show Moving (opInc form)
    unfold opInc
    exact moving_modifyInstr form (fun _ _ => rfl) fun _ _ => rfl
  case DEC =>
    show Moving (opDec form)
    unfold opDec
    exact moving_modifyInstr form (fun _ _ => rfl) fun _ _ => rfl
  case DCP =>
    show Moving (opDcp form)
    unfold opDcp
    exact moving_modifyInstr form (fun _ _ => rfl) fun _ _ => rfl
  case ISB =>
    show Moving (opIsb form)
    unfold opIsb
    exact moving_modifyInstr form (fun _ _ => rfl) fun _ _ => rfl
  case ASL =>
    show Moving (opAsl form)
    unfold opAsl
    exact moving_shiftInstr form _ fun _ _ => rfl
  case LSR =>
    show Moving (opLsr form)
    unfold opLsr
    exact moving_shiftInstr form _ fun _ _ => rfl
  case ROL =>
    show Moving (opRol form)
    unfold opRol
    exact moving_shiftInstr form _ fun _ _ => rfl
  case ROR =>
    show Moving (opRor form)
    unfold opRor
    exact moving_shiftInstr form _ fun _ _ => rfl
  case SLO =>
    show Moving (opSlo form)
    unfold opSlo
    exact moving_shiftInstr form _ fun _ _ => rfl
  case SRE =>
    show Moving (opSre form)
    unfold opSre
    exact moving_shiftInstr form _ fun _ _ => rfl
  case RLA =>
    show Moving (opRla form)
    unfold opRla
    exact moving_shiftInstr form _ fun _ _ => rfl
  case RRA =>
    show Moving (opRra form)
    unfold opRra
    exact moving_shiftInstr form _ fun _ _ => rfl
  all_goals first
    | exact moving_readInstr form fun _ _ => rfl
    | exact moving_storeInstr form _
    | exact moving_cpu
    | (cases form <;> first | exact moving_branchInstr _ _ | exact moving_pure)

/-- WHAT AN INSTRUCTION CAN DO: register writes, bus reads and bus writes. -/
theorem exec_moves {i : Instr} {s t : State} (h : exec i s = .next t) : Moves s t := by
  rw [exec_eq] at h
  exact moving_opOf _ _ s () t (outcome_eq_next.mp h)

theorem moving_fetchInstr : Moving fetchInstr :=
  moving_bind moving_fetch fun opcode => by
    cases opcodeEntry opcode with
    | none => exact moving_fault
    | some t =>
      cases t
      case none => exact moving_pure
      case byte => exact moving_bind moving_fetch fun _ => moving_pure
      case word => exact moving_bind moving_fetchWord fun _ => moving_pure

/-- WHAT A STEP CAN DO: the parts of a step that gives a next state. -/
theorem step_eq_next {s u : State} : step s = .next u ↔
    s.fault = none ∧ ∃ s1 i s2 s3, beforeFetch s = .ok () s1 ∧ fetchInstr s1 = .ok i s2 ∧
      exec i s2 = .next s3 ∧ ppuPart i s3 = .ok () u := by
  unfold step prepare
  constructor
  · intro h
    split at h
    · cases h
    · split at h
      · cases h
      · rename_i hp
        obtain ⟨⟨⟩, s1, h1, h2⟩ := bind_eq_ok.mp hp
        split at h
        · exact ⟨‹_›, s1, _, _, _, h1, h2, ‹_›, outcome_eq_next.mp h⟩
        · cases h
        · cases h
  · rintro ⟨hf, s1, i, s2, s3, h1, h2, h3, h4⟩
    simp only [hf, h1, bind_ok, h2, h3, h4, outcome_ok]

/-- What the parts before the fetch can do: schedule, host actions, DMA, interrupt entry. -/
theorem beforeFetch_eq_ok {s t : State} : beforeFetch s = .ok () t ↔
    ∃ s1 s2, hostPart s = .ok () s1 ∧ transferIfRequested s1 = .ok () s2 ∧ handleInterrupts s2 = .ok () t := by
  unfold beforeFetch
  rw [bind_eq_ok]
  constructor
  · rintro ⟨⟨⟩, s1, h1, h2⟩
    obtain ⟨⟨⟩, s2, h3, h4⟩ := bind_eq_ok.mp h2
    exact ⟨s1, s2, h1, h3, h4⟩
  · rintro ⟨s1, s2, h1, h3, h4⟩
    exact ⟨(), s1, h1, bind_eq_ok.mpr ⟨(), s2, h3, h4⟩⟩

/-- What polling can do: nothing, or one request cleared and its entry taken (60 R483). -/
theorem handleInterrupts_cases {s t : State} (h : handleInterrupts s = .ok () t) :
    (NoInterrupt s ∧ t = s) ∨
    (s.int.nmi = true ∧ takeInterrupt nmiVector { s with int := { s.int with nmi := false } } = .ok () t) ∨
    (s.int.nmi = false ∧ s.int.irq = true ∧ s.flag .I = false ∧
      takeInterrupt irqVector { s with int := { s.int with irq := false } } = .ok () t) := by
  unfold handleInterrupts at h
  split at h
  · exact .inr (.inl ⟨‹_›, h⟩)
  · split at h
    · rename_i h1 h2
      simp only [Bool.and_eq_true, Bool.not_eq_true'] at h2
      exact .inr (.inr ⟨by simpa using h1, h2.1, h2.2, h⟩)
    · rename_i h1 h2
      cases h
      refine .inl ⟨⟨by simpa using h1, ?_⟩, rfl⟩
      cases hi : s.int.irq
      · exact .inl rfl
      · right
        simpa [hi] using h2

/-- The bytes that the copy has put in place so far, and those it has not reached (51 R431). -/
theorem copyToSpriteRam_get (base : Nat) : ∀ (n : Nat) (s : State) (k : Nat),
    byteAt (copyToSpriteRam base n s).ppu.spriteRam k =
      if k < n then byteAt s.wram (base + k) else byteAt s.ppu.spriteRam k
  | 0, s, k => by simp [copyToSpriteRam]
  | n + 1, s, k => by
    have ih := copyToSpriteRam_get base n s k
    have hw : ∀ m, (copyToSpriteRam base m s).wram = s.wram := by
      intro m
      induction m with
      | zero => rfl
      | succ m ih => exact ih
    show byteAt (setByte (copyToSpriteRam base n s).ppu.spriteRam n _) k = _
    rw [byteAt_setByte, ih, hw]
    by_cases hk : k = n
    · subst hk; simp
    · by_cases hl : k < n
      · have : k < n + 1 := by omega
        simp [hk, hl, this]
      · have : ¬ k < n + 1 := by omega
        simp [hk, hl, this]

/-- The copy changes sprite RAM only. -/
theorem copyToSpriteRam_frame (base : Nat) : ∀ (n : Nat) (s : State),
    copyToSpriteRam base n s =
      { s with ppu := { s.ppu with spriteRam := (copyToSpriteRam base n s).ppu.spriteRam } }
  | 0, _ => rfl
  | n + 1, s => by
    have ih := copyToSpriteRam_frame base n s
    have e : copyToSpriteRam base (n + 1) s = transferSpriteData n
        (byteAt (copyToSpriteRam base n s).wram (base + n)) (copyToSpriteRam base n s) := rfl
    rw [e]
    unfold transferSpriteData
    generalize copyToSpriteRam base n s = t at ih ⊢
    rw [ih]

end Sys2Proof.Machine
end

