-- ==== Sys2Proof/Laws/Ppu.lean ====
section
/-! SUPPORT. What a PPU step can do: drawing changes the image and its opacity bits only, the step moves the counters by
one place of the frame, and with character memory attached it always ends well. -/

namespace Sys2Proof.Machine

/-- `t` is `s` but for the image and its opacity bits. -/
def Drawn (s t : State) : Prop :=
  t = { s with ppu := { s.ppu with image := t.ppu.image, bgOpaque := t.ppu.bgOpaque } }

theorem Drawn.refl (s : State) : Drawn s s := rfl

theorem Drawn.trans {s t u : State} (h : Drawn s t) (k : Drawn t u) : Drawn s u := by
  unfold Drawn at *
  rw [h] at k
  exact k

theorem Drawn.chr {s t : State} (h : Drawn s t) : t.chr = s.chr := by rw [h]

theorem drawn_setPixel (y x : Nat) (c : BitVec 6) (s : State) : Drawn s (setPixel y x c s) := rfl

theorem drawn_setOpaque (y x : Nat) (b : Bool) (s : State) : Drawn s (setOpaque y x b s) := rfl

/-- An operation that only draws, and ends well while character memory is attached. -/
def Draws {α : Type} (op : State → Result α) : Prop :=
  (∀ s v t, op s = .ok v t → Drawn s t) ∧ (∀ s, s.chr.isSome = true → ∃ v t, op s = .ok v t)

theorem draws_ok {α : Type} {v : α} {f : State → State} (h : ∀ s, Drawn s (f s)) : Draws fun s => .ok v (f s) :=
  ⟨fun s w t e => by cases e; exact h s, fun s _ => ⟨v, f s, rfl⟩⟩

theorem draws_bind {α β : Type} {op : State → Result α} {k : α → State → Result β} (h : Draws op)
    (hk : ∀ v, Draws (k v)) : Draws fun s => (op s).bind k := by
  refine ⟨fun s w t e => ?_, fun s hs => ?_⟩
  · obtain ⟨v, u, h1, h2⟩ := bind_eq_ok.mp e
    exact (h.1 s v u h1).trans ((hk v).1 u w t h2)
  · obtain ⟨v, u, h1⟩ := h.2 s hs
    obtain ⟨w, t, h2⟩ := (hk v).2 u (by rw [(h.1 s v u h1).chr]; exact hs)
    exact ⟨w, t, by show (op s).bind k = _; rw [h1, bind_ok, h2]⟩

theorem draws_ite {α : Type} {c : State → Prop} [∀ s, Decidable (c s)] {f g : State → Result α} (hf : Draws f)
    (hg : Draws g) : Draws fun s => if c s then f s else g s := by
  refine ⟨fun s w t e => ?_, fun s hs => ?_⟩ <;> by_cases h : c s
  · exact hf.1 s w t (by simpa [h] using e)
  · exact hg.1 s w t (by simpa [h] using e)
  · simpa [h] using hf.2 s hs
  · simpa [h] using hg.2 s hs

/-- An operation that first reads the state for a parameter. -/
theorem draws_read {α β : Type} {p : State → β} {op : β → State → Result α} (h : ∀ b, Draws (op b)) :
    Draws fun s => op (p s) s :=
  ⟨fun s w t e => (h (p s)).1 s w t e, fun s hs => (h (p s)).2 s hs⟩

theorem draws_forEach {f : Nat → State → Result Unit} (h : ∀ k, Draws (f k)) : ∀ ks, Draws (forEach f ks)
  | [] => draws_ok Drawn.refl
  | k :: ks => draws_bind (h k) fun _ => draws_forEach h ks

theorem draws_ppuBusRead (a : Word) : Draws (ppuBusRead a) :=
  ⟨fun s v t e => by rw [ppuBusRead_state e]; exact .refl s,
    fun s hs => by obtain ⟨v, h⟩ := ppuBusRead_connected a hs; exact ⟨v, s, h⟩⟩

theorem draws_colour (index : Nat) : Draws (colour index) :=
  draws_bind (draws_ppuBusRead _) fun _ => draws_ok Drawn.refl

theorem draws_patternRow (bank : Bool) (tile : Byte) (row : Nat) : Draws (patternRow bank tile row) :=
  draws_bind (draws_ppuBusRead _) fun _ => draws_bind (draws_ppuBusRead _) fun _ => draws_ok Drawn.refl

theorem draws_attributeSelector (b : BgPlace) : Draws (attributeSelector b) :=
  draws_bind (draws_ppuBusRead _) fun _ => draws_ok Drawn.refl

theorem draws_backdropGroup (x y : Nat) : Draws (drawBackdropGroup x y) :=
  draws_forEach (fun _ => draws_bind (draws_colour 0) fun _ =>
    draws_ok fun _ => (drawn_setPixel _ _ _ _).trans (drawn_setOpaque _ _ _ _)) _

/-- A background group only draws (50 R355, R362). -/
theorem draws_backgroundGroup (x y : Nat) : Draws (drawBackgroundGroup x y) := by
  refine draws_ite (c := fun s => s.ppu.mask.getLsbD 3) ?_ (draws_backdropGroup x y)
  refine draws_read (p := fun s => bgCoordinates s.ppu x y)
    (op := fun place s =>
      (ppuBusRead (BitVec.ofNat 16 (nameAddress place)) s).bind fun tile s =>
      (attributeSelector place s).bind fun sel s =>
      (patternRow (s.ppu.control.getLsbD 4) tile place.fy s).bind fun row s =>
      forEach (fun i s => (colour (4 * sel + pixelValue row i) s).bind fun c s =>
        .ok () (setOpaque y (x + i) (pixelValue row i != 0) (setPixel y (x + i) c s))) (List.range 8) s)
    fun place => ?_
  refine draws_bind (draws_ppuBusRead _) fun tile => draws_bind (draws_attributeSelector place) fun sel => ?_
  refine draws_bind
    (draws_read (p := fun s => s.ppu.control.getLsbD 4) (op := fun bank s => patternRow bank tile place.fy s)
      fun bank => draws_patternRow bank tile place.fy)
    fun row => draws_forEach (fun i => ?_) _
  exact draws_bind (draws_colour _) fun c =>
    draws_ok fun s => (drawn_setPixel _ _ _ _).trans (drawn_setOpaque _ _ _ _)

theorem draws_spritePixel (rec : SpriteRecord) (row : PlaneRow) (py c : Nat) :
    Draws (drawSpritePixel rec row py c) := by
  refine draws_ite (c := fun _ => rec.x + c ≥ 256) (draws_ok Drawn.refl) ?_
  refine draws_ite (c := fun _ => pixelValue row (if rec.attr.getLsbD 6 then 7 - c else c) = 0)
    (draws_ok Drawn.refl) ?_
  exact draws_ite
    (c := fun s => (rec.attr.getLsbD 5 && gridGet false s.ppu.bgOpaque py (rec.x + c)) = true)
    (draws_ok Drawn.refl)
    (draws_bind (draws_colour _) fun k => draws_ok fun s => drawn_setPixel _ _ _ _)

theorem draws_spriteRow (rec : SpriteRecord) (r : Nat) : Draws (drawSpriteRow rec r) := by
  refine draws_ite (c := fun _ => rec.y + r ≥ 240) (draws_ok Drawn.refl) ?_
  exact draws_bind
    (draws_read (p := fun s => s.ppu.control.getLsbD 3) fun bank =>
      draws_patternRow bank rec.tile (if rec.attr.getLsbD 7 then 7 - r else r))
    fun row => draws_forEach (draws_spritePixel rec row _) _

theorem draws_sprite (n : Nat) : Draws (drawSprite n) :=
  draws_read (p := fun s => spriteRecord s.ppu.spriteRam n) fun rec => draws_forEach (draws_spriteRow rec) _

/-- Sprite drawing only draws (50 R363). -/
theorem draws_sprites : Draws drawSprites :=
  draws_ite (c := fun s => s.ppu.mask.getLsbD 4) (draws_forEach draws_sprite _) (draws_ok Drawn.refl)

/-- The background part of a PPU step only draws. -/
theorem draws_backgroundPart : Draws backgroundPart :=
  draws_ite (c := fun s => s.ppu.line < 240 ∧ s.ppu.cycle < 256 ∧ s.ppu.cycle % 8 = 0)
    (draws_read (p := fun s => s.ppu.cycle) fun x =>
      draws_read (p := fun s => s.ppu.line) fun y => draws_backgroundGroup x y)
    (draws_ok Drawn.refl)

/-- What the sprite-0 test leaves: all but status bit 6, which it can only set (50 R354). -/
theorem spriteZeroTest_eq (s : State) :
    spriteZeroTest s = { s with ppu := { s.ppu with status :=
      if (byteAt s.ppu.spriteRam 0).toNat = s.ppu.line ∧ s.ppu.mask.getLsbD 3 ∧ s.ppu.mask.getLsbD 4 then
        s.ppu.status ||| 0x40
      else s.ppu.status } } := by
  unfold spriteZeroTest
  split <;> rfl

/-- The counter advance, case by case (50 R351 to R353). -/
theorem advance_eq_ok {s t : State} (h : advance s = .ok () t) :
    (s.ppu.cycle < 340 ∧ t = { s with ppu := { s.ppu with cycle := s.ppu.cycle + 1 } }) ∨
    (¬ s.ppu.cycle < 340 ∧ s.ppu.line < 261 ∧ s.ppu.line ≠ 239 ∧
      t = { s with ppu := { s.ppu with cycle := 0, line := s.ppu.line + 1 } }) ∨
    (¬ s.ppu.cycle < 340 ∧ s.ppu.line = 239 ∧
      t = { s with
        ppu := { s.ppu with cycle := 0, line := 240, status := s.ppu.status ||| 0x80 }
        int := { s.int with nmi := s.int.nmi || s.ppu.control.getLsbD 7 } }) ∨
    (¬ s.ppu.cycle < 340 ∧ ¬ s.ppu.line < 261 ∧ ∃ u,
      drawSprites { s with ppu := { s.ppu with cycle := 0 } } = .ok () u ∧
      t = { u with
        ppu := { u.ppu with line := 0, status := u.ppu.status &&& 0x3F }
        int := { u.int with nmi := false }
        render := { count := u.render.count + 1, frame := u.ppu.image } }) := by
  unfold advance at h
  split at h
  · cases h; exact .inl ⟨‹_›, rfl⟩
  · split at h
    · dsimp only at h
      split at h
      · cases h
        have : s.ppu.line = 239 := by omega
        refine .inr (.inr (.inl ⟨‹_›, this, ?_⟩))
        simp [vblankStart, this]
      · cases h
        exact .inr (.inl ⟨‹_›, ‹_›, by omega, rfl⟩)
    · unfold frameEnd at h
      obtain ⟨⟨⟩, u, h1, h2⟩ := bind_eq_ok.mp h
      cases h2
      exact .inr (.inr (.inr ⟨‹_›, ‹_›, u, h1, rfl⟩))

theorem PpuEffects.refl (s : State) : PpuEffects s s := rfl

theorem PpuEffects.trans {s t u : State} (h : PpuEffects s t) (k : PpuEffects t u) : PpuEffects s u := by
  unfold PpuEffects at *
  rw [h] at k
  exact k

theorem Drawn.ppuEffects {s t : State} (h : Drawn s t) : PpuEffects s t := by
  unfold PpuEffects
  rw [h]

theorem PpuEffects.chr {s t : State} (h : PpuEffects s t) : t.chr = s.chr := by rw [h]

theorem spriteZeroTest_effects (s : State) : PpuEffects s (spriteZeroTest s) := by
  rw [spriteZeroTest_eq]; exact rfl

theorem advance_effects {s t : State} (h : advance s = .ok () t) : PpuEffects s t := by
  rcases advance_eq_ok h with ⟨_, rfl⟩ | ⟨_, _, _, rfl⟩ | ⟨_, _, rfl⟩ | ⟨_, _, u, hu, rfl⟩
  · exact rfl
  · exact rfl
  · exact rfl
  · have d := draws_sprites.1 _ _ _ hu
    unfold PpuEffects
    rw [d]

/-- A PPU step changes what `PpuEffects` lists. -/
theorem ppuStep_effects {s t : State} (h : ppuStep s = .ok () t) : PpuEffects s t := by
  obtain ⟨⟨⟩, u, h1, h2⟩ := bind_eq_ok.mp h
  exact (draws_backgroundPart.1 s _ u h1).ppuEffects.trans ((spriteZeroTest_effects u).trans (advance_effects h2))

/-- With character memory attached a PPU step ends well. -/
theorem ppuStep_connected {s : State} (h : s.chr.isSome = true) : ∃ t, ppuStep s = .ok () t := by
  obtain ⟨⟨⟩, u, h1⟩ := draws_backgroundPart.2 s h
  have hu : (spriteZeroTest u).chr = s.chr := by
    rw [(spriteZeroTest_effects u).chr, (draws_backgroundPart.1 s _ u h1).chr]
  unfold ppuStep
  rw [h1, bind_ok]
  generalize spriteZeroTest u = w at hu
  unfold advance
  split
  · exact ⟨_, rfl⟩
  · split
    · exact ⟨_, rfl⟩
    · obtain ⟨⟨⟩, v, hv⟩ := draws_sprites.2 { w with ppu := { w.ppu with cycle := 0 } }
        (by show w.chr.isSome = true; rw [hu]; exact h)
      unfold frameEnd
      rw [hv, bind_ok]
      exact ⟨_, rfl⟩

theorem ppuSteps_effects : ∀ (n : Nat) {s t : State}, ppuSteps n s = .ok () t → PpuEffects s t
  | 0, s, t, h => by cases h; exact .refl s
  | n + 1, s, t, h => by
    obtain ⟨⟨⟩, u, h1, h2⟩ := bind_eq_ok.mp h
    exact (ppuStep_effects h1).trans (ppuSteps_effects n h2)

theorem ppuSteps_connected : ∀ (n : Nat) {s : State}, s.chr.isSome = true → ∃ t, ppuSteps n s = .ok () t
  | 0, s, _ => ⟨s, rfl⟩
  | n + 1, s, h => by
    obtain ⟨u, h1⟩ := ppuStep_connected h
    obtain ⟨t, h2⟩ := ppuSteps_connected n (s := u) (by rw [(ppuStep_effects h1).chr]; exact h)
    exact ⟨t, by unfold ppuSteps; rw [h1, bind_ok, h2]⟩

/-- The counters a drawing leaves, and what it leaves of the rest that the next parts read. -/
theorem Drawn.fields {s t : State} (h : Drawn s t) :
    t.ppu.cycle = s.ppu.cycle ∧ t.ppu.line = s.ppu.line ∧ t.ppu.status = s.ppu.status ∧
      t.ppu.control = s.ppu.control ∧ t.ppu.mask = s.ppu.mask ∧ t.ppu.spriteRam = s.ppu.spriteRam ∧ t.int = s.int := by
  rw [h]
  exact ⟨rfl, rfl, rfl, rfl, rfl, rfl, rfl⟩

end Sys2Proof.Machine
end

