-- ==== Sys2Proof/Laws/Invariants.lean ====
section
/-! SUPPORT. Every memory operation keeps the canonical forms: bus writes, the sprite copy, drawing. State.reset is the
power-on state after `CPU.reset()`, and its memories are canonical. -/

namespace Sys2Proof.Machine

theorem lookupOverride_mem {k v : Nat} : ∀ {m : List (Nat × Nat)}, lookupOverride k m = some v → (k, v) ∈ m
  | [], h => by cases h
  | (j, w) :: m, h => by
    unfold lookupOverride at h
    split at h
    · cases h; subst_vars; exact List.mem_cons_self
    · exact List.mem_cons_of_mem _ (lookupOverride_mem h)

theorem nametableMirror_lt {c : Config} {k : Nat} (hk : k < 0x1000) : nametableMirror c k < 0x1000 := by
  unfold nametableMirror
  split
  · exact Nat.mod_lt _ (by decide)
  · exact hk

/-- A palette index is in range and never an aliased entry (20 R100). -/
theorem palIndex_range (b : Nat) : palIndex b < 0x20 ∧
    palIndex b ≠ 0x10 ∧ palIndex b ≠ 0x14 ∧ palIndex b ≠ 0x18 ∧ palIndex b ≠ 0x1C := by
  unfold palIndex
  dsimp only
  split <;> omega

/-- The canonical forms survive any change of the other fields. -/
theorem MemoryInv.congr {s t : State} (h : MemoryInv s) (e1 : t.wram = s.wram) (e2 : t.vram = s.vram)
    (e3 : t.palette = s.palette) (e4 : t.ppu.spriteRam = s.ppu.spriteRam) (e5 : t.chr = s.chr)
    (e6 : t.ppu.image = s.ppu.image) (e7 : t.ppu.bgOpaque = s.ppu.bgOpaque) : MemoryInv t :=
  ⟨by rw [e1]; exact h.wram, by rw [e2]; exact h.vram, by rw [e3]; exact h.palette, by rw [e3]; exact h.unaliased,
    by rw [e4]; exact h.sprites, by rw [e5]; exact h.chr, by rw [e6]; exact h.image, by rw [e7]; exact h.opacity⟩

theorem readEffects_memoryInv {s t : State} (e : ReadEffects s t) (h : MemoryInv s) : MemoryInv t := by
  rw [e.1]
  exact h.congr rfl rfl rfl rfl rfl rfl rfl

/-- A PPU-bus write keeps the canonical forms. -/
theorem memoryInv_ppuBusWrite {a : Word} {v : Byte} {s t : State} (e : ppuBusWrite a v s = .ok () t)
    (h : MemoryInv s) : MemoryInv t := by
  have := ppuAddress_lt a
  unfold ppuBusWrite at e
  dsimp only at e
  split at e
  · split at e
    · cases e
      rename_i m hm
      exact { h with chr := fun n hn => by cases hn; exact memoryWf_setByte (h.chr _ hm) (by omega) }
    · cases e
  · split at e
    · cases e
      exact { h with vram := memoryWf_setByte h.vram (nametableMirror_lt (by omega)) }
    · split at e
      · cases e
        exact { h with vram := memoryWf_setByte h.vram (nametableMirror_lt (by omega)) }
      · cases e
        have r := palIndex_range (ppuAddress a)
        exact { h with
          palette := memoryWf_setByte h.palette r.1
          unaliased := fun c hc => by
            rcases mem_set hc with rfl | hc
            · exact r.2
            · exact h.unaliased c hc }

/-- A CPU-bus write keeps the canonical forms. -/
theorem memoryInv_memWrite {a : Word} {v : Byte} {s t : State} (e : memWrite a v s = .ok () t) (h : MemoryInv s) :
    MemoryInv t := by
  unfold memWrite busWrite at e
  split at e
  · cases e
    exact { h with wram := memoryWf_setByte h.wram (Nat.mod_lt _ (by decide)) }
  · split at e
    · unfold ppuPortWrite at e
      split at e
      · cases e; exact h.congr rfl rfl rfl rfl rfl rfl rfl
      · cases e; exact h.congr rfl rfl rfl rfl rfl rfl rfl
      · cases e; exact h.congr rfl rfl rfl rfl rfl rfl rfl
      · cases e
        exact { h with sprites := memoryWf_setByte h.sprites s.ppu.spriteRamAddress.isLt }
      · cases e
        unfold writeScroll
        split <;> exact h.congr rfl rfl rfl rfl rfl rfl rfl
      · cases e
        unfold writeVramAddress
        split <;> exact h.congr rfl rfl rfl rfl rfl rfl rfl
      · unfold writeVramData at e
        obtain ⟨⟨⟩, u, h1, h2⟩ := bind_eq_ok.mp e
        cases h2
        exact (memoryInv_ppuBusWrite h1 h).congr rfl rfl rfl rfl rfl rfl rfl
      · cases e; exact h
    · repeat' split at e
      all_goals cases e
      all_goals exact h.congr rfl rfl rfl rfl rfl rfl rfl

/-- The sprite copy keeps the canonical forms. -/
theorem memoryInv_copyToSpriteRam (base : Nat) : ∀ (n : Nat) (s : State), n ≤ 0x100 → MemoryInv s →
    MemoryInv (copyToSpriteRam base n s)
  | 0, _, _, h => h
  | n + 1, s, hn, h => by
    have ih := memoryInv_copyToSpriteRam base n s (by omega) h
    exact { ih with sprites := memoryWf_setByte ih.sprites (by omega) }

/-- Drawing inside the image keeps the canonical forms. -/
theorem memoryInv_setPixel {y x : Nat} {c : BitVec 6} {s : State} (hy : y < 240) (hx : x < 256) (h : MemoryInv s) :
    MemoryInv (setPixel y x c s) := { h with image := gridWf_set h.image hy hx }

theorem memoryInv_setOpaque {y x : Nat} {b : Bool} {s : State} (hy : y < 240) (hx : x < 256) (h : MemoryInv s) :
    MemoryInv (setOpaque y x b s) := { h with opacity := gridWf_set h.opacity hy hx }

/-- State.reset is the power-on state of the default parameters after `CPU.reset()` (70 R534). -/
theorem boot_default : boot Config.default = .ok () State.reset := by decide

/-- Every memory of State.reset is in canonical form. -/
theorem reset_memoryInv : MemoryInv State.reset where
  wram := by decide
  vram := by decide
  palette := by decide
  unaliased := by decide
  sprites := by decide
  chr := fun m hm => by cases hm; decide
  image := by decide
  opacity := by decide

end Sys2Proof.Machine
end

