-- ==== Sys2Proof/Laws/PerInstr.lean ====
section
/-! SUPPORT. One lemma for each constructor of Instr: the family RoundTrip, decoding an encoded instruction gives it back,
with the bytes after it. -/

namespace Sys2Proof.Laws.RoundTrip

/-- What the family says of an instruction. -/
def Statement (i : Instr) : Prop := i.wellFormed = true → ∀ rest, decode (encode i ++ rest) = .instr i rest

theorem word_roundTrip (w : Word) : wordOfBytes (lowByte w) (highByte w) = w := by
  apply BitVec.eq_of_getLsbD_eq
  intro i hi
  simp only [wordOfBytes, lowByte, highByte, BitVec.getLsbD_append, BitVec.getLsbD_setWidth,
    BitVec.getLsbD_extractLsb']
  by_cases h : i < 8
  · simp [h]
  · have h1 : 8 + (i - 8) = i := by omega
    have h2 : i - 8 < 8 := by omega
    simp [h, h1, h2]

theorem decode_none {opcode : Byte} {i : Instr} (h : opcodeEntry opcode = some (.none i)) (rest : List Byte) :
    decode (opcode :: rest) = .instr i rest := by
  simp only [decode, h]

theorem decode_byte {opcode : Byte} {build : Byte → Instr} (h : opcodeEntry opcode = some (.byte build)) (d8 : Byte)
    (rest : List Byte) : decode (opcode :: d8 :: rest) = .instr (build d8) rest := by
  simp only [decode, h]

theorem decode_word {opcode : Byte} {build : Word → Instr} (h : opcodeEntry opcode = some (.word build)) (w : Word)
    (rest : List Byte) : decode (opcode :: lowByte w :: highByte w :: rest) = .instr (build w) rest := by
  simp only [decode, h, word_roundTrip]

theorem displacement_roundTrip {disp : Int} (h : displacementFits disp = true) :
    displacementOf (offsetByte disp) = disp := by
  unfold displacementFits at h
  simp only [Bool.and_eq_true, decide_eq_true_eq] at h
  unfold displacementOf offsetByte
  rw [BitVec.toInt_ofInt, Int.bmod_def]; omega


theorem ldaImmediate (v : Byte) : Statement (.ldaImmediate v) := fun _ rest =>
  decode_byte (opcode := 0xA9) rfl v rest
theorem ldaZeroPage (v : Byte) : Statement (.ldaZeroPage v) := fun _ rest =>
  decode_byte (opcode := 0xA5) rfl v rest
theorem ldaZeroPageX (v : Byte) : Statement (.ldaZeroPageX v) := fun _ rest =>
  decode_byte (opcode := 0xB5) rfl v rest
theorem ldaAbsolute (w : Word) : Statement (.ldaAbsolute w) := fun _ rest =>
  decode_word (opcode := 0xAD) rfl w rest
theorem ldaAbsoluteX (w : Word) : Statement (.ldaAbsoluteX w) := fun _ rest =>
  decode_word (opcode := 0xBD) rfl w rest
theorem ldaAbsoluteY (w : Word) : Statement (.ldaAbsoluteY w) := fun _ rest =>
  decode_word (opcode := 0xB9) rfl w rest
theorem ldaPreIndexedIndirect (v : Byte) : Statement (.ldaPreIndexedIndirect v) := fun _ rest =>
  decode_byte (opcode := 0xA1) rfl v rest
theorem ldaPostIndexedIndirect (v : Byte) : Statement (.ldaPostIndexedIndirect v) := fun _ rest =>
  decode_byte (opcode := 0xB1) rfl v rest
theorem ldxImmediate (v : Byte) : Statement (.ldxImmediate v) := fun _ rest =>
  decode_byte (opcode := 0xA2) rfl v rest
theorem ldxZeroPage (v : Byte) : Statement (.ldxZeroPage v) := fun _ rest =>
  decode_byte (opcode := 0xA6) rfl v rest
theorem ldxZeroPageY (v : Byte) : Statement (.ldxZeroPageY v) := fun _ rest =>
  decode_byte (opcode := 0xB6) rfl v rest
theorem ldxAbsolute (w : Word) : Statement (.ldxAbsolute w) := fun _ rest =>
  decode_word (opcode := 0xAE) rfl w rest
theorem ldxAbsoluteY (w : Word) : Statement (.ldxAbsoluteY w) := fun _ rest =>
  decode_word (opcode := 0xBE) rfl w rest
theorem ldyImmediate (v : Byte) : Statement (.ldyImmediate v) := fun _ rest =>
  decode_byte (opcode := 0xA0) rfl v rest
theorem ldyZeroPage (v : Byte) : Statement (.ldyZeroPage v) := fun _ rest =>
  decode_byte (opcode := 0xA4) rfl v rest
theorem ldyZeroPageX (v : Byte) : Statement (.ldyZeroPageX v) := fun _ rest =>
  decode_byte (opcode := 0xB4) rfl v rest
theorem ldyAbsolute (w : Word) : Statement (.ldyAbsolute w) := fun _ rest =>
  decode_word (opcode := 0xAC) rfl w rest
theorem ldyAbsoluteX (w : Word) : Statement (.ldyAbsoluteX w) := fun _ rest =>
  decode_word (opcode := 0xBC) rfl w rest
theorem staZeroPage (v : Byte) : Statement (.staZeroPage v) := fun _ rest =>
  decode_byte (opcode := 0x85) rfl v rest
theorem staZeroPageX (v : Byte) : Statement (.staZeroPageX v) := fun _ rest =>
  decode_byte (opcode := 0x95) rfl v rest
theorem staAbsolute (w : Word) : Statement (.staAbsolute w) := fun _ rest =>
  decode_word (opcode := 0x8D) rfl w rest
theorem staAbsoluteX (w : Word) : Statement (.staAbsoluteX w) := fun _ rest =>
  decode_word (opcode := 0x9D) rfl w rest
theorem staAbsoluteY (w : Word) : Statement (.staAbsoluteY w) := fun _ rest =>
  decode_word (opcode := 0x99) rfl w rest
theorem staPreIndexedIndirect (v : Byte) : Statement (.staPreIndexedIndirect v) := fun _ rest =>
  decode_byte (opcode := 0x81) rfl v rest
theorem staPostIndexedIndirect (v : Byte) : Statement (.staPostIndexedIndirect v) := fun _ rest =>
  decode_byte (opcode := 0x91) rfl v rest
theorem stxZeroPage (v : Byte) : Statement (.stxZeroPage v) := fun _ rest =>
  decode_byte (opcode := 0x86) rfl v rest
theorem stxZeroPageY (v : Byte) : Statement (.stxZeroPageY v) := fun _ rest =>
  decode_byte (opcode := 0x96) rfl v rest
theorem stxAbsolute (w : Word) : Statement (.stxAbsolute w) := fun _ rest =>
  decode_word (opcode := 0x8E) rfl w rest
theorem styZeroPage (v : Byte) : Statement (.styZeroPage v) := fun _ rest =>
  decode_byte (opcode := 0x84) rfl v rest
theorem styZeroPageX (v : Byte) : Statement (.styZeroPageX v) := fun _ rest =>
  decode_byte (opcode := 0x94) rfl v rest
theorem styAbsolute (w : Word) : Statement (.styAbsolute w) := fun _ rest =>
  decode_word (opcode := 0x8C) rfl w rest
theorem tax : Statement .tax := fun _ rest => decode_none (opcode := 0xAA) rfl rest
theorem tay : Statement .tay := fun _ rest => decode_none (opcode := 0xA8) rfl rest
theorem txa : Statement .txa := fun _ rest => decode_none (opcode := 0x8A) rfl rest
theorem tya : Statement .tya := fun _ rest => decode_none (opcode := 0x98) rfl rest
theorem tsx : Statement .tsx := fun _ rest => decode_none (opcode := 0xBA) rfl rest
theorem txs : Statement .txs := fun _ rest => decode_none (opcode := 0x9A) rfl rest
theorem adcImmediate (v : Byte) : Statement (.adcImmediate v) := fun _ rest =>
  decode_byte (opcode := 0x69) rfl v rest
theorem adcZeroPage (v : Byte) : Statement (.adcZeroPage v) := fun _ rest =>
  decode_byte (opcode := 0x65) rfl v rest
theorem adcZeroPageX (v : Byte) : Statement (.adcZeroPageX v) := fun _ rest =>
  decode_byte (opcode := 0x75) rfl v rest
theorem adcAbsolute (w : Word) : Statement (.adcAbsolute w) := fun _ rest =>
  decode_word (opcode := 0x6D) rfl w rest
theorem adcAbsoluteX (w : Word) : Statement (.adcAbsoluteX w) := fun _ rest =>
  decode_word (opcode := 0x7D) rfl w rest
theorem adcAbsoluteY (w : Word) : Statement (.adcAbsoluteY w) := fun _ rest =>
  decode_word (opcode := 0x79) rfl w rest
theorem adcPreIndexedIndirect (v : Byte) : Statement (.adcPreIndexedIndirect v) := fun _ rest =>
  decode_byte (opcode := 0x61) rfl v rest
theorem adcPostIndexedIndirect (v : Byte) : Statement (.adcPostIndexedIndirect v) := fun _ rest =>
  decode_byte (opcode := 0x71) rfl v rest
theorem sbcImmediate (v : Byte) : Statement (.sbcImmediate v) := fun _ rest =>
  decode_byte (opcode := 0xE9) rfl v rest
theorem sbcZeroPage (v : Byte) : Statement (.sbcZeroPage v) := fun _ rest =>
  decode_byte (opcode := 0xE5) rfl v rest
theorem sbcZeroPageX (v : Byte) : Statement (.sbcZeroPageX v) := fun _ rest =>
  decode_byte (opcode := 0xF5) rfl v rest
theorem sbcAbsolute (w : Word) : Statement (.sbcAbsolute w) := fun _ rest =>
  decode_word (opcode := 0xED) rfl w rest
theorem sbcAbsoluteX (w : Word) : Statement (.sbcAbsoluteX w) := fun _ rest =>
  decode_word (opcode := 0xFD) rfl w rest
theorem sbcAbsoluteY (w : Word) : Statement (.sbcAbsoluteY w) := fun _ rest =>
  decode_word (opcode := 0xF9) rfl w rest
theorem sbcPreIndexedIndirect (v : Byte) : Statement (.sbcPreIndexedIndirect v) := fun _ rest =>
  decode_byte (opcode := 0xE1) rfl v rest
theorem sbcPostIndexedIndirect (v : Byte) : Statement (.sbcPostIndexedIndirect v) := fun _ rest =>
  decode_byte (opcode := 0xF1) rfl v rest
theorem cmpImmediate (v : Byte) : Statement (.cmpImmediate v) := fun _ rest =>
  decode_byte (opcode := 0xC9) rfl v rest
theorem cmpZeroPage (v : Byte) : Statement (.cmpZeroPage v) := fun _ rest =>
  decode_byte (opcode := 0xC5) rfl v rest
theorem cmpZeroPageX (v : Byte) : Statement (.cmpZeroPageX v) := fun _ rest =>
  decode_byte (opcode := 0xD5) rfl v rest
theorem cmpAbsolute (w : Word) : Statement (.cmpAbsolute w) := fun _ rest =>
  decode_word (opcode := 0xCD) rfl w rest
theorem cmpAbsoluteX (w : Word) : Statement (.cmpAbsoluteX w) := fun _ rest =>
  decode_word (opcode := 0xDD) rfl w rest
theorem cmpAbsoluteY (w : Word) : Statement (.cmpAbsoluteY w) := fun _ rest =>
  decode_word (opcode := 0xD9) rfl w rest
theorem cmpPreIndexedIndirect (v : Byte) : Statement (.cmpPreIndexedIndirect v) := fun _ rest =>
  decode_byte (opcode := 0xC1) rfl v rest
theorem cmpPostIndexedIndirect (v : Byte) : Statement (.cmpPostIndexedIndirect v) := fun _ rest =>
  decode_byte (opcode := 0xD1) rfl v rest
theorem cpxImmediate (v : Byte) : Statement (.cpxImmediate v) := fun _ rest =>
  decode_byte (opcode := 0xE0) rfl v rest
theorem cpxZeroPage (v : Byte) : Statement (.cpxZeroPage v) := fun _ rest =>
  decode_byte (opcode := 0xE4) rfl v rest
theorem cpxAbsolute (w : Word) : Statement (.cpxAbsolute w) := fun _ rest =>
  decode_word (opcode := 0xEC) rfl w rest
theorem cpyImmediate (v : Byte) : Statement (.cpyImmediate v) := fun _ rest =>
  decode_byte (opcode := 0xC0) rfl v rest
theorem cpyZeroPage (v : Byte) : Statement (.cpyZeroPage v) := fun _ rest =>
  decode_byte (opcode := 0xC4) rfl v rest
theorem cpyAbsolute (w : Word) : Statement (.cpyAbsolute w) := fun _ rest =>
  decode_word (opcode := 0xCC) rfl w rest
theorem incZeroPage (v : Byte) : Statement (.incZeroPage v) := fun _ rest =>
  decode_byte (opcode := 0xE6) rfl v rest
theorem incZeroPageX (v : Byte) : Statement (.incZeroPageX v) := fun _ rest =>
  decode_byte (opcode := 0xF6) rfl v rest
theorem incAbsolute (w : Word) : Statement (.incAbsolute w) := fun _ rest =>
  decode_word (opcode := 0xEE) rfl w rest
theorem incAbsoluteX (w : Word) : Statement (.incAbsoluteX w) := fun _ rest =>
  decode_word (opcode := 0xFE) rfl w rest
theorem decZeroPage (v : Byte) : Statement (.decZeroPage v) := fun _ rest =>
  decode_byte (opcode := 0xC6) rfl v rest
theorem decZeroPageX (v : Byte) : Statement (.decZeroPageX v) := fun _ rest =>
  decode_byte (opcode := 0xD6) rfl v rest
theorem decAbsolute (w : Word) : Statement (.decAbsolute w) := fun _ rest =>
  decode_word (opcode := 0xCE) rfl w rest
theorem decAbsoluteX (w : Word) : Statement (.decAbsoluteX w) := fun _ rest =>
  decode_word (opcode := 0xDE) rfl w rest
theorem inx : Statement .inx := fun _ rest => decode_none (opcode := 0xE8) rfl rest
theorem iny : Statement .iny := fun _ rest => decode_none (opcode := 0xC8) rfl rest
theorem dex : Statement .dex := fun _ rest => decode_none (opcode := 0xCA) rfl rest
theorem dey : Statement .dey := fun _ rest => decode_none (opcode := 0x88) rfl rest
theorem andImmediate (v : Byte) : Statement (.andImmediate v) := fun _ rest =>
  decode_byte (opcode := 0x29) rfl v rest
theorem andZeroPage (v : Byte) : Statement (.andZeroPage v) := fun _ rest =>
  decode_byte (opcode := 0x25) rfl v rest
theorem andZeroPageX (v : Byte) : Statement (.andZeroPageX v) := fun _ rest =>
  decode_byte (opcode := 0x35) rfl v rest
theorem andAbsolute (w : Word) : Statement (.andAbsolute w) := fun _ rest =>
  decode_word (opcode := 0x2D) rfl w rest
theorem andAbsoluteX (w : Word) : Statement (.andAbsoluteX w) := fun _ rest =>
  decode_word (opcode := 0x3D) rfl w rest
theorem andAbsoluteY (w : Word) : Statement (.andAbsoluteY w) := fun _ rest =>
  decode_word (opcode := 0x39) rfl w rest
theorem andPreIndexedIndirect (v : Byte) : Statement (.andPreIndexedIndirect v) := fun _ rest =>
  decode_byte (opcode := 0x21) rfl v rest
theorem andPostIndexedIndirect (v : Byte) : Statement (.andPostIndexedIndirect v) := fun _ rest =>
  decode_byte (opcode := 0x31) rfl v rest
theorem oraImmediate (v : Byte) : Statement (.oraImmediate v) := fun _ rest =>
  decode_byte (opcode := 0x09) rfl v rest
theorem oraZeroPage (v : Byte) : Statement (.oraZeroPage v) := fun _ rest =>
  decode_byte (opcode := 0x05) rfl v rest
theorem oraZeroPageX (v : Byte) : Statement (.oraZeroPageX v) := fun _ rest =>
  decode_byte (opcode := 0x15) rfl v rest
theorem oraAbsolute (w : Word) : Statement (.oraAbsolute w) := fun _ rest =>
  decode_word (opcode := 0x0D) rfl w rest
theorem oraAbsoluteX (w : Word) : Statement (.oraAbsoluteX w) := fun _ rest =>
  decode_word (opcode := 0x1D) rfl w rest
theorem oraAbsoluteY (w : Word) : Statement (.oraAbsoluteY w) := fun _ rest =>
  decode_word (opcode := 0x19) rfl w rest
theorem oraPreIndexedIndirect (v : Byte) : Statement (.oraPreIndexedIndirect v) := fun _ rest =>
  decode_byte (opcode := 0x01) rfl v rest
theorem oraPostIndexedIndirect (v : Byte) : Statement (.oraPostIndexedIndirect v) := fun _ rest =>
  decode_byte (opcode := 0x11) rfl v rest
theorem eorImmediate (v : Byte) : Statement (.eorImmediate v) := fun _ rest =>
  decode_byte (opcode := 0x49) rfl v rest
theorem eorZeroPage (v : Byte) : Statement (.eorZeroPage v) := fun _ rest =>
  decode_byte (opcode := 0x45) rfl v rest
theorem eorZeroPageX (v : Byte) : Statement (.eorZeroPageX v) := fun _ rest =>
  decode_byte (opcode := 0x55) rfl v rest
theorem eorAbsolute (w : Word) : Statement (.eorAbsolute w) := fun _ rest =>
  decode_word (opcode := 0x4D) rfl w rest
theorem eorAbsoluteX (w : Word) : Statement (.eorAbsoluteX w) := fun _ rest =>
  decode_word (opcode := 0x5D) rfl w rest
theorem eorAbsoluteY (w : Word) : Statement (.eorAbsoluteY w) := fun _ rest =>
  decode_word (opcode := 0x59) rfl w rest
theorem eorPreIndexedIndirect (v : Byte) : Statement (.eorPreIndexedIndirect v) := fun _ rest =>
  decode_byte (opcode := 0x41) rfl v rest
theorem eorPostIndexedIndirect (v : Byte) : Statement (.eorPostIndexedIndirect v) := fun _ rest =>
  decode_byte (opcode := 0x51) rfl v rest
theorem bitZeroPage (v : Byte) : Statement (.bitZeroPage v) := fun _ rest =>
  decode_byte (opcode := 0x24) rfl v rest
theorem bitAbsolute (w : Word) : Statement (.bitAbsolute w) := fun _ rest =>
  decode_word (opcode := 0x2C) rfl w rest
theorem aslAccumulator : Statement .aslAccumulator := fun _ rest => decode_none (opcode := 0x0A) rfl rest
theorem aslZeroPage (v : Byte) : Statement (.aslZeroPage v) := fun _ rest =>
  decode_byte (opcode := 0x06) rfl v rest
theorem aslZeroPageX (v : Byte) : Statement (.aslZeroPageX v) := fun _ rest =>
  decode_byte (opcode := 0x16) rfl v rest
theorem aslAbsolute (w : Word) : Statement (.aslAbsolute w) := fun _ rest =>
  decode_word (opcode := 0x0E) rfl w rest
theorem aslAbsoluteX (w : Word) : Statement (.aslAbsoluteX w) := fun _ rest =>
  decode_word (opcode := 0x1E) rfl w rest
theorem lsrAccumulator : Statement .lsrAccumulator := fun _ rest => decode_none (opcode := 0x4A) rfl rest
theorem lsrZeroPage (v : Byte) : Statement (.lsrZeroPage v) := fun _ rest =>
  decode_byte (opcode := 0x46) rfl v rest
theorem lsrZeroPageX (v : Byte) : Statement (.lsrZeroPageX v) := fun _ rest =>
  decode_byte (opcode := 0x56) rfl v rest
theorem lsrAbsolute (w : Word) : Statement (.lsrAbsolute w) := fun _ rest =>
  decode_word (opcode := 0x4E) rfl w rest
theorem lsrAbsoluteX (w : Word) : Statement (.lsrAbsoluteX w) := fun _ rest =>
  decode_word (opcode := 0x5E) rfl w rest
theorem rolAccumulator : Statement .rolAccumulator := fun _ rest => decode_none (opcode := 0x2A) rfl rest
theorem rolZeroPage (v : Byte) : Statement (.rolZeroPage v) := fun _ rest =>
  decode_byte (opcode := 0x26) rfl v rest
theorem rolZeroPageX (v : Byte) : Statement (.rolZeroPageX v) := fun _ rest =>
  decode_byte (opcode := 0x36) rfl v rest
theorem rolAbsolute (w : Word) : Statement (.rolAbsolute w) := fun _ rest =>
  decode_word (opcode := 0x2E) rfl w rest
theorem rolAbsoluteX (w : Word) : Statement (.rolAbsoluteX w) := fun _ rest =>
  decode_word (opcode := 0x3E) rfl w rest
theorem rorAccumulator : Statement .rorAccumulator := fun _ rest => decode_none (opcode := 0x6A) rfl rest
theorem rorZeroPage (v : Byte) : Statement (.rorZeroPage v) := fun _ rest =>
  decode_byte (opcode := 0x66) rfl v rest
theorem rorZeroPageX (v : Byte) : Statement (.rorZeroPageX v) := fun _ rest =>
  decode_byte (opcode := 0x76) rfl v rest
theorem rorAbsolute (w : Word) : Statement (.rorAbsolute w) := fun _ rest =>
  decode_word (opcode := 0x6E) rfl w rest
theorem rorAbsoluteX (w : Word) : Statement (.rorAbsoluteX w) := fun _ rest =>
  decode_word (opcode := 0x7E) rfl w rest
theorem bcc (d : Int) : Statement (.bcc d) := fun h rest =>
  (decode_byte (opcode := 0x90) rfl (offsetByte d) rest).trans
    (congrArg (fun a => Decoded.instr (.bcc a) rest) (displacement_roundTrip h))
theorem bcs (d : Int) : Statement (.bcs d) := fun h rest =>
  (decode_byte (opcode := 0xB0) rfl (offsetByte d) rest).trans
    (congrArg (fun a => Decoded.instr (.bcs a) rest) (displacement_roundTrip h))
theorem beq (d : Int) : Statement (.beq d) := fun h rest =>
  (decode_byte (opcode := 0xF0) rfl (offsetByte d) rest).trans
    (congrArg (fun a => Decoded.instr (.beq a) rest) (displacement_roundTrip h))
theorem bne (d : Int) : Statement (.bne d) := fun h rest =>
  (decode_byte (opcode := 0xD0) rfl (offsetByte d) rest).trans
    (congrArg (fun a => Decoded.instr (.bne a) rest) (displacement_roundTrip h))
theorem bmi (d : Int) : Statement (.bmi d) := fun h rest =>
  (decode_byte (opcode := 0x30) rfl (offsetByte d) rest).trans
    (congrArg (fun a => Decoded.instr (.bmi a) rest) (displacement_roundTrip h))
theorem bpl (d : Int) : Statement (.bpl d) := fun h rest =>
  (decode_byte (opcode := 0x10) rfl (offsetByte d) rest).trans
    (congrArg (fun a => Decoded.instr (.bpl a) rest) (displacement_roundTrip h))
theorem bvc (d : Int) : Statement (.bvc d) := fun h rest =>
  (decode_byte (opcode := 0x50) rfl (offsetByte d) rest).trans
    (congrArg (fun a => Decoded.instr (.bvc a) rest) (displacement_roundTrip h))
theorem bvs (d : Int) : Statement (.bvs d) := fun h rest =>
  (decode_byte (opcode := 0x70) rfl (offsetByte d) rest).trans
    (congrArg (fun a => Decoded.instr (.bvs a) rest) (displacement_roundTrip h))
theorem jmpAbsolute (w : Word) : Statement (.jmpAbsolute w) := fun _ rest =>
  decode_word (opcode := 0x4C) rfl w rest
theorem jmpIndirectAbsolute (w : Word) : Statement (.jmpIndirectAbsolute w) := fun _ rest =>
  decode_word (opcode := 0x6C) rfl w rest
theorem jsr (w : Word) : Statement (.jsr w) := fun _ rest =>
  decode_word (opcode := 0x20) rfl w rest
theorem rts : Statement .rts := fun _ rest => decode_none (opcode := 0x60) rfl rest
theorem pha : Statement .pha := fun _ rest => decode_none (opcode := 0x48) rfl rest
theorem php : Statement .php := fun _ rest => decode_none (opcode := 0x08) rfl rest
theorem pla : Statement .pla := fun _ rest => decode_none (opcode := 0x68) rfl rest
theorem plp : Statement .plp := fun _ rest => decode_none (opcode := 0x28) rfl rest
theorem clc : Statement .clc := fun _ rest => decode_none (opcode := 0x18) rfl rest
theorem sec : Statement .sec := fun _ rest => decode_none (opcode := 0x38) rfl rest
theorem cli : Statement .cli := fun _ rest => decode_none (opcode := 0x58) rfl rest
theorem sei : Statement .sei := fun _ rest => decode_none (opcode := 0x78) rfl rest
theorem clv : Statement .clv := fun _ rest => decode_none (opcode := 0xB8) rfl rest
theorem cld : Statement .cld := fun _ rest => decode_none (opcode := 0xD8) rfl rest
theorem sed : Statement .sed := fun _ rest => decode_none (opcode := 0xF8) rfl rest
theorem nop : Statement .nop := fun _ rest => decode_none (opcode := 0xEA) rfl rest
theorem brk : Statement .brk := fun _ rest => decode_none (opcode := 0x00) rfl rest
theorem rti : Statement .rti := fun _ rest => decode_none (opcode := 0x40) rfl rest
theorem laxZeroPage (v : Byte) : Statement (.laxZeroPage v) := fun _ rest =>
  decode_byte (opcode := 0xA7) rfl v rest
theorem laxZeroPageY (v : Byte) : Statement (.laxZeroPageY v) := fun _ rest =>
  decode_byte (opcode := 0xB7) rfl v rest
theorem laxAbsolute (w : Word) : Statement (.laxAbsolute w) := fun _ rest =>
  decode_word (opcode := 0xAF) rfl w rest
theorem laxAbsoluteY (w : Word) : Statement (.laxAbsoluteY w) := fun _ rest =>
  decode_word (opcode := 0xBF) rfl w rest
theorem laxPreIndexedIndirect (v : Byte) : Statement (.laxPreIndexedIndirect v) := fun _ rest =>
  decode_byte (opcode := 0xA3) rfl v rest
theorem laxPostIndexedIndirect (v : Byte) : Statement (.laxPostIndexedIndirect v) := fun _ rest =>
  decode_byte (opcode := 0xB3) rfl v rest
theorem saxZeroPage (v : Byte) : Statement (.saxZeroPage v) := fun _ rest =>
  decode_byte (opcode := 0x87) rfl v rest
theorem saxZeroPageY (v : Byte) : Statement (.saxZeroPageY v) := fun _ rest =>
  decode_byte (opcode := 0x97) rfl v rest
theorem saxAbsolute (w : Word) : Statement (.saxAbsolute w) := fun _ rest =>
  decode_word (opcode := 0x8F) rfl w rest
theorem saxPreIndexedIndirect (v : Byte) : Statement (.saxPreIndexedIndirect v) := fun _ rest =>
  decode_byte (opcode := 0x83) rfl v rest
theorem dcpZeroPage (v : Byte) : Statement (.dcpZeroPage v) := fun _ rest =>
  decode_byte (opcode := 0xC7) rfl v rest
theorem dcpZeroPageX (v : Byte) : Statement (.dcpZeroPageX v) := fun _ rest =>
  decode_byte (opcode := 0xD7) rfl v rest
theorem dcpAbsolute (w : Word) : Statement (.dcpAbsolute w) := fun _ rest =>
  decode_word (opcode := 0xCF) rfl w rest
theorem dcpAbsoluteX (w : Word) : Statement (.dcpAbsoluteX w) := fun _ rest =>
  decode_word (opcode := 0xDF) rfl w rest
theorem dcpAbsoluteY (w : Word) : Statement (.dcpAbsoluteY w) := fun _ rest =>
  decode_word (opcode := 0xDB) rfl w rest
theorem dcpPreIndexedIndirect (v : Byte) : Statement (.dcpPreIndexedIndirect v) := fun _ rest =>
  decode_byte (opcode := 0xC3) rfl v rest
theorem dcpPostIndexedIndirect (v : Byte) : Statement (.dcpPostIndexedIndirect v) := fun _ rest =>
  decode_byte (opcode := 0xD3) rfl v rest
theorem isbZeroPage (v : Byte) : Statement (.isbZeroPage v) := fun _ rest =>
  decode_byte (opcode := 0xE7) rfl v rest
theorem isbZeroPageX (v : Byte) : Statement (.isbZeroPageX v) := fun _ rest =>
  decode_byte (opcode := 0xF7) rfl v rest
theorem isbAbsolute (w : Word) : Statement (.isbAbsolute w) := fun _ rest =>
  decode_word (opcode := 0xEF) rfl w rest
theorem isbAbsoluteX (w : Word) : Statement (.isbAbsoluteX w) := fun _ rest =>
  decode_word (opcode := 0xFF) rfl w rest
theorem isbAbsoluteY (w : Word) : Statement (.isbAbsoluteY w) := fun _ rest =>
  decode_word (opcode := 0xFB) rfl w rest
theorem isbPreIndexedIndirect (v : Byte) : Statement (.isbPreIndexedIndirect v) := fun _ rest =>
  decode_byte (opcode := 0xE3) rfl v rest
theorem isbPostIndexedIndirect (v : Byte) : Statement (.isbPostIndexedIndirect v) := fun _ rest =>
  decode_byte (opcode := 0xF3) rfl v rest
theorem sloZeroPage (v : Byte) : Statement (.sloZeroPage v) := fun _ rest =>
  decode_byte (opcode := 0x07) rfl v rest
theorem sloZeroPageX (v : Byte) : Statement (.sloZeroPageX v) := fun _ rest =>
  decode_byte (opcode := 0x17) rfl v rest
theorem sloAbsolute (w : Word) : Statement (.sloAbsolute w) := fun _ rest =>
  decode_word (opcode := 0x0F) rfl w rest
theorem sloAbsoluteX (w : Word) : Statement (.sloAbsoluteX w) := fun _ rest =>
  decode_word (opcode := 0x1F) rfl w rest
theorem sloAbsoluteY (w : Word) : Statement (.sloAbsoluteY w) := fun _ rest =>
  decode_word (opcode := 0x1B) rfl w rest
theorem sloPreIndexedIndirect (v : Byte) : Statement (.sloPreIndexedIndirect v) := fun _ rest =>
  decode_byte (opcode := 0x03) rfl v rest
theorem sloPostIndexedIndirect (v : Byte) : Statement (.sloPostIndexedIndirect v) := fun _ rest =>
  decode_byte (opcode := 0x13) rfl v rest
theorem sreZeroPage (v : Byte) : Statement (.sreZeroPage v) := fun _ rest =>
  decode_byte (opcode := 0x47) rfl v rest
theorem sreZeroPageX (v : Byte) : Statement (.sreZeroPageX v) := fun _ rest =>
  decode_byte (opcode := 0x57) rfl v rest
theorem sreAbsolute (w : Word) : Statement (.sreAbsolute w) := fun _ rest =>
  decode_word (opcode := 0x4F) rfl w rest
theorem sreAbsoluteX (w : Word) : Statement (.sreAbsoluteX w) := fun _ rest =>
  decode_word (opcode := 0x5F) rfl w rest
theorem sreAbsoluteY (w : Word) : Statement (.sreAbsoluteY w) := fun _ rest =>
  decode_word (opcode := 0x5B) rfl w rest
theorem srePreIndexedIndirect (v : Byte) : Statement (.srePreIndexedIndirect v) := fun _ rest =>
  decode_byte (opcode := 0x43) rfl v rest
theorem srePostIndexedIndirect (v : Byte) : Statement (.srePostIndexedIndirect v) := fun _ rest =>
  decode_byte (opcode := 0x53) rfl v rest
theorem rlaZeroPage (v : Byte) : Statement (.rlaZeroPage v) := fun _ rest =>
  decode_byte (opcode := 0x27) rfl v rest
theorem rlaZeroPageX (v : Byte) : Statement (.rlaZeroPageX v) := fun _ rest =>
  decode_byte (opcode := 0x37) rfl v rest
theorem rlaAbsolute (w : Word) : Statement (.rlaAbsolute w) := fun _ rest =>
  decode_word (opcode := 0x2F) rfl w rest
theorem rlaAbsoluteX (w : Word) : Statement (.rlaAbsoluteX w) := fun _ rest =>
  decode_word (opcode := 0x3F) rfl w rest
theorem rlaAbsoluteY (w : Word) : Statement (.rlaAbsoluteY w) := fun _ rest =>
  decode_word (opcode := 0x3B) rfl w rest
theorem rlaPreIndexedIndirect (v : Byte) : Statement (.rlaPreIndexedIndirect v) := fun _ rest =>
  decode_byte (opcode := 0x23) rfl v rest
theorem rlaPostIndexedIndirect (v : Byte) : Statement (.rlaPostIndexedIndirect v) := fun _ rest =>
  decode_byte (opcode := 0x33) rfl v rest
theorem rraZeroPage (v : Byte) : Statement (.rraZeroPage v) := fun _ rest =>
  decode_byte (opcode := 0x67) rfl v rest
theorem rraZeroPageX (v : Byte) : Statement (.rraZeroPageX v) := fun _ rest =>
  decode_byte (opcode := 0x77) rfl v rest
theorem rraAbsolute (w : Word) : Statement (.rraAbsolute w) := fun _ rest =>
  decode_word (opcode := 0x6F) rfl w rest
theorem rraAbsoluteX (w : Word) : Statement (.rraAbsoluteX w) := fun _ rest =>
  decode_word (opcode := 0x7F) rfl w rest
theorem rraAbsoluteY (w : Word) : Statement (.rraAbsoluteY w) := fun _ rest =>
  decode_word (opcode := 0x7B) rfl w rest
theorem rraPreIndexedIndirect (v : Byte) : Statement (.rraPreIndexedIndirect v) := fun _ rest =>
  decode_byte (opcode := 0x63) rfl v rest
theorem rraPostIndexedIndirect (v : Byte) : Statement (.rraPostIndexedIndirect v) := fun _ rest =>
  decode_byte (opcode := 0x73) rfl v rest

end Sys2Proof.Laws.RoundTrip
end

