-- ==== Sys2Proof/Tests/Slice0.lean ====
section
/-! SUPPORT. The model's own tests: fixed values whose results come from the vectors and examples of spec/ (95, 30 R149),
and for each statement with hypotheses a state that meets them together. -/

namespace Sys2Proof.Tests

open Sys2Proof Sys2Proof.Machine

/-- The reset machine with these CPU registers and working RAM, and `bytes` placed at `PC`. -/
def start (cpu : Cpu) (wram : Memory) (bytes : List Byte) : State :=
  placeBytes bytes cpu.pc { State.reset with cpu := cpu, wram := wram }

/-- The vectors of spec/95 2.6 and 2.8: NMI 0x9000, IRQ and BRK 0xA000, a NOP at both handlers. -/
def withVectors (s : State) : State :=
  placeBytes [0xEA] 0x9000 (placeBytes [0xEA] 0xA000 (placeBytes [0x00, 0x90, 0x00, 0x00, 0x00, 0xA0] 0xFFFA s))

/-- One step answers a next state that looks like `want`. -/
def endsWith {α : Type} [DecidableEq α] (look : State → α) (s : State) (want : α) : Bool :=
  match step s with
  | .next t => decide (look t = want)
  | _ => false

/-- One step ends with these registers and working RAM, and with the PPU three places on for each cycle. -/
def ends (s : State) (cpu : Cpu) (wram : Memory) (cycles : Nat) : Bool :=
  endsWith (fun t => (t.cpu, t.wram, framePosition t)) s (cpu, wram, 3 * cycles)

/-- One step ends in this fault. -/
def faults (s : State) (f : Fault) : Bool :=
  match step s with
  | .fault g => decide (g = f)
  | _ => false

/-- The state after an operation that ends well. -/
def stateOf {α : Type} (r : Result α) : Option State :=
  match r with
  | .ok _ s => some s
  | .fault _ => none

/-- The value of an operation that ends well. -/
def valueOf {α : Type} (r : Result α) : Option α :=
  match r with
  | .ok v _ => some v
  | .fault _ => none

/-- A machine with no program ROM and no character memory. -/
def bare : State := { State.reset with chr := none, config := { Config.default with prgRom := none, chrInit := none } }

/-- Every word of a list decodes to the instruction beside it, and with nothing left over. -/
def decodesTo (rows : List (List Byte × Instr)) : Bool := rows.all fun r => decide (decode r.1 = .instr r.2 [])

/-! The well-formedness check: a displacement outside -128 to 127 is refused, and it is the only check (30 R142). -/

theorem test_displacement_above_127_is_ill_formed : (Instr.bcc 128).wellFormed = false := by decide

theorem test_displacement_below_minus_128_is_ill_formed : (Instr.bne (-129)).wellFormed = false := by decide

theorem test_every_branch_is_checked :
    [Instr.bcc 128, .bcs 128, .beq 128, .bne 128, .bmi (-129), .bpl (-129), .bvc (-129), .bvs (-129)].all
      (fun i => !i.wellFormed) = true := by decide

theorem test_limits_are_well_formed :
    [Instr.bcc (-128), .bcs 127, .beq 0, .ldaImmediate 0xFF, .jmpAbsolute 0xFFFF, .nop].all Instr.wellFormed
      = true := by
  decide

/-! Decoding: a word of every row of R144 and R145, laid out from the opcode column and the operand bytes of R142 (byte
0x9A; word 0x1234, low byte first; displacement -5 as 0xFB). -/

theorem test_decode_loads : decodesTo
    [([0xA1, 0x9A], .ldaPreIndexedIndirect 0x9A), ([0xA5, 0x9A], .ldaZeroPage 0x9A),
     ([0xA9, 0x9A], .ldaImmediate 0x9A), ([0xAD, 0x34, 0x12], .ldaAbsolute 0x1234),
     ([0xB1, 0x9A], .ldaPostIndexedIndirect 0x9A), ([0xB5, 0x9A], .ldaZeroPageX 0x9A),
     ([0xB9, 0x34, 0x12], .ldaAbsoluteY 0x1234), ([0xBD, 0x34, 0x12], .ldaAbsoluteX 0x1234),
     ([0xA2, 0x9A], .ldxImmediate 0x9A), ([0xA6, 0x9A], .ldxZeroPage 0x9A),
     ([0xAE, 0x34, 0x12], .ldxAbsolute 0x1234), ([0xB6, 0x9A], .ldxZeroPageY 0x9A),
     ([0xBE, 0x34, 0x12], .ldxAbsoluteY 0x1234), ([0xA0, 0x9A], .ldyImmediate 0x9A),
     ([0xA4, 0x9A], .ldyZeroPage 0x9A), ([0xAC, 0x34, 0x12], .ldyAbsolute 0x1234),
     ([0xB4, 0x9A], .ldyZeroPageX 0x9A), ([0xBC, 0x34, 0x12], .ldyAbsoluteX 0x1234)] = true := by decide

theorem test_decode_stores_and_transfers : decodesTo
    [([0x81, 0x9A], .staPreIndexedIndirect 0x9A), ([0x85, 0x9A], .staZeroPage 0x9A),
     ([0x8D, 0x34, 0x12], .staAbsolute 0x1234), ([0x91, 0x9A], .staPostIndexedIndirect 0x9A),
     ([0x95, 0x9A], .staZeroPageX 0x9A), ([0x99, 0x34, 0x12], .staAbsoluteY 0x1234),
     ([0x9D, 0x34, 0x12], .staAbsoluteX 0x1234), ([0x86, 0x9A], .stxZeroPage 0x9A),
     ([0x8E, 0x34, 0x12], .stxAbsolute 0x1234), ([0x96, 0x9A], .stxZeroPageY 0x9A),
     ([0x84, 0x9A], .styZeroPage 0x9A), ([0x8C, 0x34, 0x12], .styAbsolute 0x1234),
     ([0x94, 0x9A], .styZeroPageX 0x9A), ([0xAA], .tax), ([0xA8], .tay), ([0x8A], .txa), ([0x98], .tya),
     ([0xBA], .tsx), ([0x9A], .txs)] = true := by decide

theorem test_decode_additions : decodesTo
    [([0x61, 0x9A], .adcPreIndexedIndirect 0x9A), ([0x65, 0x9A], .adcZeroPage 0x9A),
     ([0x69, 0x9A], .adcImmediate 0x9A), ([0x6D, 0x34, 0x12], .adcAbsolute 0x1234),
     ([0x71, 0x9A], .adcPostIndexedIndirect 0x9A), ([0x75, 0x9A], .adcZeroPageX 0x9A),
     ([0x79, 0x34, 0x12], .adcAbsoluteY 0x1234), ([0x7D, 0x34, 0x12], .adcAbsoluteX 0x1234),
     ([0xE1, 0x9A], .sbcPreIndexedIndirect 0x9A), ([0xE5, 0x9A], .sbcZeroPage 0x9A),
     ([0xE9, 0x9A], .sbcImmediate 0x9A), ([0xED, 0x34, 0x12], .sbcAbsolute 0x1234),
     ([0xF1, 0x9A], .sbcPostIndexedIndirect 0x9A), ([0xF5, 0x9A], .sbcZeroPageX 0x9A),
     ([0xF9, 0x34, 0x12], .sbcAbsoluteY 0x1234), ([0xFD, 0x34, 0x12], .sbcAbsoluteX 0x1234),
     ([0xC1, 0x9A], .cmpPreIndexedIndirect 0x9A), ([0xC5, 0x9A], .cmpZeroPage 0x9A),
     ([0xC9, 0x9A], .cmpImmediate 0x9A), ([0xCD, 0x34, 0x12], .cmpAbsolute 0x1234),
     ([0xD1, 0x9A], .cmpPostIndexedIndirect 0x9A), ([0xD5, 0x9A], .cmpZeroPageX 0x9A),
     ([0xD9, 0x34, 0x12], .cmpAbsoluteY 0x1234), ([0xDD, 0x34, 0x12], .cmpAbsoluteX 0x1234)] = true := by decide

theorem test_decode_compares_and_steps : decodesTo
    [([0xE0, 0x9A], .cpxImmediate 0x9A), ([0xE4, 0x9A], .cpxZeroPage 0x9A), ([0xEC, 0x34, 0x12], .cpxAbsolute 0x1234),
     ([0xC0, 0x9A], .cpyImmediate 0x9A), ([0xC4, 0x9A], .cpyZeroPage 0x9A),
     ([0xCC, 0x34, 0x12], .cpyAbsolute 0x1234), ([0xE6, 0x9A], .incZeroPage 0x9A),
     ([0xEE, 0x34, 0x12], .incAbsolute 0x1234), ([0xF6, 0x9A], .incZeroPageX 0x9A),
     ([0xFE, 0x34, 0x12], .incAbsoluteX 0x1234), ([0xC6, 0x9A], .decZeroPage 0x9A),
     ([0xCE, 0x34, 0x12], .decAbsolute 0x1234), ([0xD6, 0x9A], .decZeroPageX 0x9A),
     ([0xDE, 0x34, 0x12], .decAbsoluteX 0x1234), ([0xE8], .inx), ([0xC8], .iny), ([0xCA], .dex), ([0x88], .dey)]
      = true := by
  decide

theorem test_decode_logical : decodesTo
    [([0x21, 0x9A], .andPreIndexedIndirect 0x9A), ([0x25, 0x9A], .andZeroPage 0x9A),
     ([0x29, 0x9A], .andImmediate 0x9A), ([0x2D, 0x34, 0x12], .andAbsolute 0x1234),
     ([0x31, 0x9A], .andPostIndexedIndirect 0x9A), ([0x35, 0x9A], .andZeroPageX 0x9A),
     ([0x39, 0x34, 0x12], .andAbsoluteY 0x1234), ([0x3D, 0x34, 0x12], .andAbsoluteX 0x1234),
     ([0x01, 0x9A], .oraPreIndexedIndirect 0x9A), ([0x05, 0x9A], .oraZeroPage 0x9A),
     ([0x09, 0x9A], .oraImmediate 0x9A), ([0x0D, 0x34, 0x12], .oraAbsolute 0x1234),
     ([0x11, 0x9A], .oraPostIndexedIndirect 0x9A), ([0x15, 0x9A], .oraZeroPageX 0x9A),
     ([0x19, 0x34, 0x12], .oraAbsoluteY 0x1234), ([0x1D, 0x34, 0x12], .oraAbsoluteX 0x1234),
     ([0x41, 0x9A], .eorPreIndexedIndirect 0x9A), ([0x45, 0x9A], .eorZeroPage 0x9A),
     ([0x49, 0x9A], .eorImmediate 0x9A), ([0x4D, 0x34, 0x12], .eorAbsolute 0x1234),
     ([0x51, 0x9A], .eorPostIndexedIndirect 0x9A), ([0x55, 0x9A], .eorZeroPageX 0x9A),
     ([0x59, 0x34, 0x12], .eorAbsoluteY 0x1234), ([0x5D, 0x34, 0x12], .eorAbsoluteX 0x1234),
     ([0x24, 0x9A], .bitZeroPage 0x9A), ([0x2C, 0x34, 0x12], .bitAbsolute 0x1234)] = true := by decide

theorem test_decode_shifts : decodesTo
    [([0x06, 0x9A], .aslZeroPage 0x9A), ([0x0A], .aslAccumulator), ([0x0E, 0x34, 0x12], .aslAbsolute 0x1234),
     ([0x16, 0x9A], .aslZeroPageX 0x9A), ([0x1E, 0x34, 0x12], .aslAbsoluteX 0x1234),
     ([0x46, 0x9A], .lsrZeroPage 0x9A), ([0x4A], .lsrAccumulator), ([0x4E, 0x34, 0x12], .lsrAbsolute 0x1234),
     ([0x56, 0x9A], .lsrZeroPageX 0x9A), ([0x5E, 0x34, 0x12], .lsrAbsoluteX 0x1234),
     ([0x26, 0x9A], .rolZeroPage 0x9A), ([0x2A], .rolAccumulator), ([0x2E, 0x34, 0x12], .rolAbsolute 0x1234),
     ([0x36, 0x9A], .rolZeroPageX 0x9A), ([0x3E, 0x34, 0x12], .rolAbsoluteX 0x1234),
     ([0x66, 0x9A], .rorZeroPage 0x9A), ([0x6A], .rorAccumulator), ([0x6E, 0x34, 0x12], .rorAbsolute 0x1234),
     ([0x76, 0x9A], .rorZeroPageX 0x9A), ([0x7E, 0x34, 0x12], .rorAbsoluteX 0x1234)] = true := by decide

theorem test_decode_control_flow : decodesTo
    [([0x90, 0xFB], .bcc (-5)), ([0xB0, 0xFB], .bcs (-5)), ([0xF0, 0xFB], .beq (-5)), ([0xD0, 0xFB], .bne (-5)),
     ([0x30, 0xFB], .bmi (-5)), ([0x10, 0xFB], .bpl (-5)), ([0x50, 0xFB], .bvc (-5)), ([0x70, 0xFB], .bvs (-5)),
     ([0x4C, 0x34, 0x12], .jmpAbsolute 0x1234), ([0x6C, 0x34, 0x12], .jmpIndirectAbsolute 0x1234),
     ([0x20, 0x34, 0x12], .jsr 0x1234), ([0x60], .rts)] = true := by decide

theorem test_decode_stack_flags_system : decodesTo
    [([0x48], .pha), ([0x08], .php), ([0x68], .pla), ([0x28], .plp), ([0x18], .clc), ([0x38], .sec), ([0x58], .cli),
     ([0x78], .sei), ([0xB8], .clv), ([0xD8], .cld), ([0xF8], .sed), ([0xEA], .nop), ([0x00], .brk), ([0x40], .rti)]
      = true := by
  decide

theorem test_decode_unofficial_loads_and_steps : decodesTo
    [([0xA3, 0x9A], .laxPreIndexedIndirect 0x9A), ([0xA7, 0x9A], .laxZeroPage 0x9A),
     ([0xAF, 0x34, 0x12], .laxAbsolute 0x1234), ([0xB3, 0x9A], .laxPostIndexedIndirect 0x9A),
     ([0xB7, 0x9A], .laxZeroPageY 0x9A), ([0xBF, 0x34, 0x12], .laxAbsoluteY 0x1234),
     ([0x83, 0x9A], .saxPreIndexedIndirect 0x9A), ([0x87, 0x9A], .saxZeroPage 0x9A),
     ([0x8F, 0x34, 0x12], .saxAbsolute 0x1234), ([0x97, 0x9A], .saxZeroPageY 0x9A),
     ([0xC3, 0x9A], .dcpPreIndexedIndirect 0x9A), ([0xC7, 0x9A], .dcpZeroPage 0x9A),
     ([0xCF, 0x34, 0x12], .dcpAbsolute 0x1234), ([0xD3, 0x9A], .dcpPostIndexedIndirect 0x9A),
     ([0xD7, 0x9A], .dcpZeroPageX 0x9A), ([0xDB, 0x34, 0x12], .dcpAbsoluteY 0x1234),
     ([0xDF, 0x34, 0x12], .dcpAbsoluteX 0x1234), ([0xE3, 0x9A], .isbPreIndexedIndirect 0x9A),
     ([0xE7, 0x9A], .isbZeroPage 0x9A), ([0xEF, 0x34, 0x12], .isbAbsolute 0x1234),
     ([0xF3, 0x9A], .isbPostIndexedIndirect 0x9A), ([0xF7, 0x9A], .isbZeroPageX 0x9A),
     ([0xFB, 0x34, 0x12], .isbAbsoluteY 0x1234), ([0xFF, 0x34, 0x12], .isbAbsoluteX 0x1234)] = true := by decide

theorem test_decode_unofficial_shifts : decodesTo
    [([0x03, 0x9A], .sloPreIndexedIndirect 0x9A), ([0x07, 0x9A], .sloZeroPage 0x9A),
     ([0x0F, 0x34, 0x12], .sloAbsolute 0x1234), ([0x13, 0x9A], .sloPostIndexedIndirect 0x9A),
     ([0x17, 0x9A], .sloZeroPageX 0x9A), ([0x1B, 0x34, 0x12], .sloAbsoluteY 0x1234),
     ([0x1F, 0x34, 0x12], .sloAbsoluteX 0x1234), ([0x43, 0x9A], .srePreIndexedIndirect 0x9A),
     ([0x47, 0x9A], .sreZeroPage 0x9A), ([0x4F, 0x34, 0x12], .sreAbsolute 0x1234),
     ([0x53, 0x9A], .srePostIndexedIndirect 0x9A), ([0x57, 0x9A], .sreZeroPageX 0x9A),
     ([0x5B, 0x34, 0x12], .sreAbsoluteY 0x1234), ([0x5F, 0x34, 0x12], .sreAbsoluteX 0x1234),
     ([0x23, 0x9A], .rlaPreIndexedIndirect 0x9A), ([0x27, 0x9A], .rlaZeroPage 0x9A),
     ([0x2F, 0x34, 0x12], .rlaAbsolute 0x1234), ([0x33, 0x9A], .rlaPostIndexedIndirect 0x9A),
     ([0x37, 0x9A], .rlaZeroPageX 0x9A), ([0x3B, 0x34, 0x12], .rlaAbsoluteY 0x1234),
     ([0x3F, 0x34, 0x12], .rlaAbsoluteX 0x1234), ([0x63, 0x9A], .rraPreIndexedIndirect 0x9A),
     ([0x67, 0x9A], .rraZeroPage 0x9A), ([0x6F, 0x34, 0x12], .rraAbsolute 0x1234),
     ([0x73, 0x9A], .rraPostIndexedIndirect 0x9A), ([0x77, 0x9A], .rraZeroPageX 0x9A),
     ([0x7B, 0x34, 0x12], .rraAbsoluteY 0x1234), ([0x7F, 0x34, 0x12], .rraAbsoluteX 0x1234)] = true := by decide

theorem test_undefined_bytes_do_not_decode :
    undefinedOpcodes.all (fun b => decide (decode [b, 0x00, 0x00] = .invalidOpcode b)) = true := by decide

theorem test_decodeTableWord : decodeTableWord 8 0xAD = some (.ldaAbsolute 0x0000) ∧
    decodeTableWord 24 0x1234AD = some (.ldaAbsolute 0x1234) ∧ decodeTableWord 8 0x02 = none := by decide

/-! One step of one instruction: rows of spec/95 2.1 to 2.7. -/

theorem test_lda_zero_page_x_wraps_in_page_zero :
    ends (start ⟨0x00, 0x02, 0x00, 0x8000, 0x01FD, 0x34⟩ [(0x0001, 0x11), (0x0101, 0x22)] [0xB5, 0xFF])
      ⟨0x11, 0x02, 0x00, 0x8002, 0x01FD, 0x34⟩ [(0x0001, 0x11), (0x0101, 0x22)] 4 = true := by decide

theorem test_ldx_zero_page_y :
    ends (start ⟨0x00, 0x00, 0x05, 0x8000, 0x01FD, 0x34⟩ [(0x0015, 0x80)] [0xB6, 0x10])
      ⟨0x00, 0x80, 0x05, 0x8002, 0x01FD, 0xB4⟩ [(0x0015, 0x80)] 4 = true := by decide

theorem test_lda_absolute_reads_a_mirror :
    ends (start ⟨0x00, 0x00, 0x00, 0x8000, 0x01FD, 0x34⟩ [(0x0234, 0x5A)] [0xAD, 0x34, 0x0A])
      ⟨0x5A, 0x00, 0x00, 0x8003, 0x01FD, 0x34⟩ [(0x0234, 0x5A)] 4 = true := by decide

theorem test_lda_absolute_x_wraps_16_bits :
    ends (start ⟨0x00, 0x03, 0x00, 0x8000, 0x01FD, 0x34⟩ [(0x0002, 0x77)] [0xBD, 0xFF, 0xFF])
      ⟨0x77, 0x03, 0x00, 0x8003, 0x01FD, 0x34⟩ [(0x0002, 0x77)] 4 = true := by decide

theorem test_lda_absolute_y_crosses_a_page :
    ends (start ⟨0x00, 0x00, 0x10, 0x8000, 0x01FD, 0x34⟩ [(0x0308, 0x44)] [0xB9, 0xF8, 0x02])
      ⟨0x44, 0x00, 0x10, 0x8003, 0x01FD, 0x34⟩ [(0x0308, 0x44)] 4 = true := by decide

theorem test_lda_pre_indexed_index_wraps :
    ends (start ⟨0x00, 0xFF, 0x00, 0x8000, 0x01FD, 0x34⟩ [(0x0010, 0x03), (0x0300, 0x42)] [0xA1, 0x10])
      ⟨0x42, 0xFF, 0x00, 0x8002, 0x01FD, 0x34⟩ [(0x0010, 0x03), (0x0300, 0x42)] 6 = true := by decide

theorem test_lda_pre_indexed_pointer_at_page_end :
    ends (start ⟨0x00, 0x00, 0x00, 0x8000, 0x01FD, 0x34⟩ [(0x0000, 0x07), (0x00FF, 0x40), (0x0100, 0x02), (0x0240,
      0xAB), (0x0740, 0xCD)]
      [0xA1, 0xFF])
      ⟨0xAB, 0x00, 0x00, 0x8002, 0x01FD, 0xB4⟩ [(0x0000, 0x07), (0x00FF, 0x40), (0x0100, 0x02), (0x0240, 0xAB),
      (0x0740, 0xCD)] 6
      = true := by
  decide

theorem test_lda_post_indexed :
    ends (start ⟨0x00, 0x00, 0x10, 0x8000, 0x01FD, 0x34⟩ [(0x0086, 0x28), (0x0087, 0x02), (0x0238, 0x66)]
      [0xB1, 0x86])
      ⟨0x66, 0x00, 0x10, 0x8002, 0x01FD, 0x34⟩ [(0x0086, 0x28), (0x0087, 0x02), (0x0238, 0x66)] 5 = true := by decide

theorem test_lda_post_indexed_sum_wraps :
    ends (start ⟨0x00, 0x00, 0x02, 0x8000, 0x01FD, 0x34⟩ [(0x0001, 0x3C), (0x0086, 0xFF), (0x0087, 0xFF)]
      [0xB1, 0x86])
      ⟨0x3C, 0x00, 0x02, 0x8002, 0x01FD, 0x34⟩ [(0x0001, 0x3C), (0x0086, 0xFF), (0x0087, 0xFF)] 5 = true := by decide

theorem test_jmp_indirect :
    ends (start ⟨0x00, 0x00, 0x00, 0x8000, 0x01FD, 0x34⟩ [(0x0200, 0x34), (0x0201, 0x12)] [0x6C, 0x00, 0x02])
      ⟨0x00, 0x00, 0x00, 0x1234, 0x01FD, 0x34⟩ [(0x0200, 0x34), (0x0201, 0x12)] 5 = true := by decide

theorem test_jmp_indirect_pointer_at_page_end :
    ends (start ⟨0x00, 0x00, 0x00, 0x8000, 0x01FD, 0x34⟩ [(0x0200, 0x56), (0x02FF, 0x34), (0x0300, 0x12)]
      [0x6C, 0xFF, 0x02])
      ⟨0x00, 0x00, 0x00, 0x1234, 0x01FD, 0x34⟩ [(0x0200, 0x56), (0x02FF, 0x34), (0x0300, 0x12)] 5 = true := by decide

theorem test_bpl_backward_128 :
    ends (start ⟨0x00, 0x00, 0x00, 0x8005, 0x01FD, 0x34⟩ [] [0x10, 0x80])
      ⟨0x00, 0x00, 0x00, 0x7F87, 0x01FD, 0x34⟩ [] 2 = true := by decide

theorem test_lda_fetch_wraps_pc :
    ends (start ⟨0x00, 0x00, 0x00, 0xFFFF, 0x01FD, 0x34⟩ [(0x0000, 0x05)] [0xA9])
      ⟨0x05, 0x00, 0x00, 0x0001, 0x01FD, 0x34⟩ [(0x0000, 0x05)] 2 = true := by decide

theorem test_lda_immediate_negative :
    ends (start ⟨0x00, 0x00, 0x00, 0x8000, 0x01FD, 0x34⟩ [] [0xA9, 0x80])
      ⟨0x80, 0x00, 0x00, 0x8002, 0x01FD, 0xB4⟩ [] 2 = true := by decide

theorem test_ldx_absolute_y :
    ends (start ⟨0x00, 0x00, 0x01, 0x8000, 0x01FD, 0x34⟩ [(0x0201, 0x7F)] [0xBE, 0x00, 0x02])
      ⟨0x00, 0x7F, 0x01, 0x8003, 0x01FD, 0x34⟩ [(0x0201, 0x7F)] 4 = true := by decide

theorem test_ldy_zero_page_x :
    ends (start ⟨0x00, 0x01, 0x00, 0x8000, 0x01FD, 0x34⟩ [(0x0011, 0xFE)] [0xB4, 0x10])
      ⟨0x00, 0x01, 0xFE, 0x8002, 0x01FD, 0xB4⟩ [(0x0011, 0xFE)] 4 = true := by decide

theorem test_lda_absolute_from_rom :
    ends (start ⟨0x00, 0x00, 0x00, 0x8000, 0x01FD, 0x34⟩ [] [0xAD, 0x03, 0x80, 0xC3])
      ⟨0xC3, 0x00, 0x00, 0x8003, 0x01FD, 0xB4⟩ [] 4 = true := by decide

theorem test_sta_touches_no_flag :
    ends (start ⟨0x00, 0x00, 0x00, 0x8000, 0x01FD, 0xB4⟩ [] [0x85, 0x10])
      ⟨0x00, 0x00, 0x00, 0x8002, 0x01FD, 0xB4⟩ [] 3 = true := by decide

theorem test_sta_absolute_x_into_a_mirror :
    ends (start ⟨0x42, 0x01, 0x00, 0x8000, 0x01FD, 0x34⟩ [] [0x9D, 0xFF, 0x0F])
      ⟨0x42, 0x01, 0x00, 0x8003, 0x01FD, 0x34⟩ [(0x0000, 0x42)] 5 = true := by decide

theorem test_stx_zero_page_y :
    ends (start ⟨0x00, 0x33, 0x02, 0x8000, 0x01FD, 0x34⟩ [] [0x96, 0x10])
      ⟨0x00, 0x33, 0x02, 0x8002, 0x01FD, 0x34⟩ [(0x0012, 0x33)] 4 = true := by decide

theorem test_sty_absolute :
    ends (start ⟨0x00, 0x00, 0x44, 0x8000, 0x01FD, 0x34⟩ [] [0x8C, 0x00, 0x03])
      ⟨0x00, 0x00, 0x44, 0x8003, 0x01FD, 0x34⟩ [(0x0300, 0x44)] 4 = true := by decide

theorem test_sta_to_rom_is_ignored :
    ends (start ⟨0x42, 0x00, 0x00, 0x8000, 0x01FD, 0x34⟩ [] [0x8D, 0x00, 0x90])
      ⟨0x42, 0x00, 0x00, 0x8003, 0x01FD, 0x34⟩ [] 4 = true := by decide

theorem test_tax :
    ends (start ⟨0x80, 0x00, 0x00, 0x8000, 0x01FD, 0x34⟩ [] [0xAA])
      ⟨0x80, 0x80, 0x00, 0x8001, 0x01FD, 0xB4⟩ [] 2 = true := by decide

theorem test_tay_zero :
    ends (start ⟨0x00, 0x00, 0x09, 0x8000, 0x01FD, 0x34⟩ [] [0xA8])
      ⟨0x00, 0x00, 0x00, 0x8001, 0x01FD, 0x36⟩ [] 2 = true := by decide

theorem test_txa :
    ends (start ⟨0x00, 0x7F, 0x00, 0x8000, 0x01FD, 0x34⟩ [] [0x8A])
      ⟨0x7F, 0x7F, 0x00, 0x8001, 0x01FD, 0x34⟩ [] 2 = true := by decide

theorem test_tya :
    ends (start ⟨0x00, 0x00, 0xFF, 0x8000, 0x01FD, 0x34⟩ [] [0x98])
      ⟨0xFF, 0x00, 0xFF, 0x8001, 0x01FD, 0xB4⟩ [] 2 = true := by decide

theorem test_tsx :
    ends (start ⟨0x00, 0x00, 0x00, 0x8000, 0x01FD, 0x34⟩ [] [0xBA])
      ⟨0x00, 0xFD, 0x00, 0x8001, 0x01FD, 0xB4⟩ [] 2 = true := by decide

theorem test_txs :
    ends (start ⟨0x00, 0x00, 0x00, 0x8000, 0x01FD, 0x34⟩ [] [0x9A])
      ⟨0x00, 0x00, 0x00, 0x8001, 0x0100, 0x34⟩ [] 2 = true := by decide

theorem test_adc_carry_and_overflow :
    ends (start ⟨0xD0, 0x00, 0x00, 0x8000, 0x01FD, 0x34⟩ [] [0x69, 0x90])
      ⟨0x60, 0x00, 0x00, 0x8002, 0x01FD, 0x75⟩ [] 2 = true := by decide

theorem test_adc_carry_in_overflow :
    ends (start ⟨0x7F, 0x00, 0x00, 0x8000, 0x01FD, 0x35⟩ [] [0x69, 0x00])
      ⟨0x80, 0x00, 0x00, 0x8002, 0x01FD, 0xF4⟩ [] 2 = true := by decide

theorem test_sbc_borrow :
    ends (start ⟨0x50, 0x00, 0x00, 0x8000, 0x01FD, 0x35⟩ [] [0xE9, 0xF0])
      ⟨0x60, 0x00, 0x00, 0x8002, 0x01FD, 0x34⟩ [] 2 = true := by decide

theorem test_sbc_overflow :
    ends (start ⟨0x80, 0x00, 0x00, 0x8000, 0x01FD, 0x35⟩ [] [0xE9, 0x01])
      ⟨0x7F, 0x00, 0x00, 0x8002, 0x01FD, 0x75⟩ [] 2 = true := by decide

theorem test_adc_zero_page :
    ends (start ⟨0x01, 0x00, 0x00, 0x8000, 0x01FD, 0x35⟩ [(0x0010, 0xFE)] [0x65, 0x10])
      ⟨0x00, 0x00, 0x00, 0x8002, 0x01FD, 0x37⟩ [(0x0010, 0xFE)] 3 = true := by decide

theorem test_sbc_post_indexed :
    ends (start ⟨0x10, 0x00, 0x01, 0x8000, 0x01FD, 0x35⟩ [(0x0021, 0x03), (0x0301, 0x10)] [0xF1, 0x20])
      ⟨0x00, 0x00, 0x01, 0x8002, 0x01FD, 0x37⟩ [(0x0021, 0x03), (0x0301, 0x10)] 5 = true := by decide

theorem test_cmp_equal :
    ends (start ⟨0x40, 0x00, 0x00, 0x8000, 0x01FD, 0x34⟩ [] [0xC9, 0x40])
      ⟨0x40, 0x00, 0x00, 0x8002, 0x01FD, 0x37⟩ [] 2 = true := by decide

theorem test_cmp_keeps_v :
    ends (start ⟨0x80, 0x00, 0x00, 0x8000, 0x01FD, 0x74⟩ [] [0xC9, 0x01])
      ⟨0x80, 0x00, 0x00, 0x8002, 0x01FD, 0x75⟩ [] 2 = true := by decide

theorem test_cpx_less :
    ends (start ⟨0x00, 0x0F, 0x00, 0x8000, 0x01FD, 0x34⟩ [] [0xE0, 0x10])
      ⟨0x00, 0x0F, 0x00, 0x8002, 0x01FD, 0xB4⟩ [] 2 = true := by decide

theorem test_cpy_absolute :
    ends (start ⟨0x00, 0x00, 0xFF, 0x8000, 0x01FD, 0x34⟩ [(0x0200, 0x01)] [0xCC, 0x00, 0x02])
      ⟨0x00, 0x00, 0xFF, 0x8003, 0x01FD, 0xB5⟩ [(0x0200, 0x01)] 4 = true := by decide

theorem test_inc_wraps :
    ends (start ⟨0x00, 0x00, 0x00, 0x8000, 0x01FD, 0x34⟩ [(0x0010, 0xFF)] [0xE6, 0x10])
      ⟨0x00, 0x00, 0x00, 0x8002, 0x01FD, 0x36⟩ [] 5 = true := by decide

theorem test_dec_wraps :
    ends (start ⟨0x00, 0x00, 0x00, 0x8000, 0x01FD, 0x34⟩ [] [0xC6, 0x10])
      ⟨0x00, 0x00, 0x00, 0x8002, 0x01FD, 0xB4⟩ [(0x0010, 0xFF)] 5 = true := by decide

theorem test_dec_absolute_x :
    ends (start ⟨0x00, 0x01, 0x00, 0x8000, 0x01FD, 0x34⟩ [(0x0201, 0x01)] [0xDE, 0x00, 0x02])
      ⟨0x00, 0x01, 0x00, 0x8003, 0x01FD, 0x36⟩ [] 7 = true := by decide

theorem test_inc_on_rom :
    ends (start ⟨0x00, 0x00, 0x00, 0x8000, 0x01FD, 0x34⟩ [] [0xEE, 0x03, 0x80, 0x7F])
      ⟨0x00, 0x00, 0x00, 0x8003, 0x01FD, 0xB4⟩ [] 6 = true := by decide

theorem test_inx_wraps :
    ends (start ⟨0x00, 0xFF, 0x00, 0x8000, 0x01FD, 0x34⟩ [] [0xE8])
      ⟨0x00, 0x00, 0x00, 0x8001, 0x01FD, 0x36⟩ [] 2 = true := by decide

theorem test_iny :
    ends (start ⟨0x00, 0x00, 0x7F, 0x8000, 0x01FD, 0x34⟩ [] [0xC8])
      ⟨0x00, 0x00, 0x80, 0x8001, 0x01FD, 0xB4⟩ [] 2 = true := by decide

theorem test_dex_wraps :
    ends (start ⟨0x00, 0x00, 0x00, 0x8000, 0x01FD, 0x34⟩ [] [0xCA])
      ⟨0x00, 0xFF, 0x00, 0x8001, 0x01FD, 0xB4⟩ [] 2 = true := by decide

theorem test_dey :
    ends (start ⟨0x00, 0x00, 0x01, 0x8000, 0x01FD, 0x34⟩ [] [0x88])
      ⟨0x00, 0x00, 0x00, 0x8001, 0x01FD, 0x36⟩ [] 2 = true := by decide

theorem test_and_zero_page_x :
    ends (start ⟨0xFF, 0x01, 0x00, 0x8000, 0x01FD, 0x34⟩ [(0x0011, 0x81)] [0x35, 0x10])
      ⟨0x81, 0x01, 0x00, 0x8002, 0x01FD, 0xB4⟩ [(0x0011, 0x81)] 4 = true := by decide

theorem test_ora :
    ends (start ⟨0x01, 0x00, 0x00, 0x8000, 0x01FD, 0x34⟩ [] [0x09, 0x80])
      ⟨0x81, 0x00, 0x00, 0x8002, 0x01FD, 0xB4⟩ [] 2 = true := by decide

theorem test_eor :
    ends (start ⟨0xAA, 0x00, 0x00, 0x8000, 0x01FD, 0x34⟩ [] [0x49, 0xFF])
      ⟨0x55, 0x00, 0x00, 0x8002, 0x01FD, 0x34⟩ [] 2 = true := by decide

theorem test_bit :
    ends (start ⟨0x01, 0x00, 0x00, 0x8000, 0x01FD, 0x34⟩ [(0x0010, 0x41)] [0x24, 0x10])
      ⟨0x01, 0x00, 0x00, 0x8002, 0x01FD, 0x74⟩ [(0x0010, 0x41)] 3 = true := by decide

theorem test_bit_z_from_and :
    ends (start ⟨0x00, 0x00, 0x00, 0x8000, 0x01FD, 0x34⟩ [(0x0200, 0xC0)] [0x2C, 0x00, 0x02])
      ⟨0x00, 0x00, 0x00, 0x8003, 0x01FD, 0xF6⟩ [(0x0200, 0xC0)] 4 = true := by decide

theorem test_asl_a :
    ends (start ⟨0x81, 0x00, 0x00, 0x8000, 0x01FD, 0x34⟩ [] [0x0A])
      ⟨0x02, 0x00, 0x00, 0x8001, 0x01FD, 0x35⟩ [] 2 = true := by decide

theorem test_asl_zero_page :
    ends (start ⟨0x00, 0x00, 0x00, 0x8000, 0x01FD, 0x34⟩ [(0x0010, 0x40)] [0x06, 0x10])
      ⟨0x00, 0x00, 0x00, 0x8002, 0x01FD, 0xB4⟩ [(0x0010, 0x80)] 5 = true := by decide

theorem test_lsr_a :
    ends (start ⟨0x01, 0x00, 0x00, 0x8000, 0x01FD, 0xB4⟩ [] [0x4A])
      ⟨0x00, 0x00, 0x00, 0x8001, 0x01FD, 0x37⟩ [] 2 = true := by decide

theorem test_lsr_absolute :
    ends (start ⟨0x00, 0x00, 0x00, 0x8000, 0x01FD, 0x34⟩ [(0x0200, 0x80)] [0x4E, 0x00, 0x02])
      ⟨0x00, 0x00, 0x00, 0x8003, 0x01FD, 0x34⟩ [(0x0200, 0x40)] 6 = true := by decide

theorem test_rol_a :
    ends (start ⟨0x80, 0x00, 0x00, 0x8000, 0x01FD, 0x35⟩ [] [0x2A])
      ⟨0x01, 0x00, 0x00, 0x8001, 0x01FD, 0x35⟩ [] 2 = true := by decide

theorem test_rol_zero_page_x :
    ends (start ⟨0x00, 0x01, 0x00, 0x8000, 0x01FD, 0x35⟩ [] [0x36, 0x10])
      ⟨0x00, 0x01, 0x00, 0x8002, 0x01FD, 0x34⟩ [(0x0011, 0x01)] 6 = true := by decide

theorem test_ror_a :
    ends (start ⟨0x00, 0x00, 0x00, 0x8000, 0x01FD, 0x35⟩ [] [0x6A])
      ⟨0x80, 0x00, 0x00, 0x8001, 0x01FD, 0xB4⟩ [] 2 = true := by decide

theorem test_ror_absolute_x :
    ends (start ⟨0x00, 0x02, 0x00, 0x8000, 0x01FD, 0x35⟩ [(0x0202, 0x03)] [0x7E, 0x00, 0x02])
      ⟨0x00, 0x02, 0x00, 0x8003, 0x01FD, 0xB5⟩ [(0x0202, 0x81)] 7 = true := by decide

theorem test_bcc_taken :
    ends (start ⟨0x00, 0x00, 0x00, 0x8100, 0x01FD, 0x34⟩ [] [0x90, 0x06])
      ⟨0x00, 0x00, 0x00, 0x8108, 0x01FD, 0x34⟩ [] 2 = true := by decide

theorem test_bcc_not_taken :
    ends (start ⟨0x00, 0x00, 0x00, 0x8100, 0x01FD, 0x35⟩ [] [0x90, 0x06])
      ⟨0x00, 0x00, 0x00, 0x8102, 0x01FD, 0x35⟩ [] 2 = true := by decide

theorem test_bcs_taken :
    ends (start ⟨0x00, 0x00, 0x00, 0x8100, 0x01FD, 0x35⟩ [] [0xB0, 0x06])
      ⟨0x00, 0x00, 0x00, 0x8108, 0x01FD, 0x35⟩ [] 2 = true := by decide

theorem test_bcs_not_taken :
    ends (start ⟨0x00, 0x00, 0x00, 0x8100, 0x01FD, 0x34⟩ [] [0xB0, 0x06])
      ⟨0x00, 0x00, 0x00, 0x8102, 0x01FD, 0x34⟩ [] 2 = true := by decide

theorem test_beq_taken :
    ends (start ⟨0x00, 0x00, 0x00, 0x8100, 0x01FD, 0x36⟩ [] [0xF0, 0x06])
      ⟨0x00, 0x00, 0x00, 0x8108, 0x01FD, 0x36⟩ [] 2 = true := by decide

theorem test_beq_not_taken :
    ends (start ⟨0x00, 0x00, 0x00, 0x8100, 0x01FD, 0x34⟩ [] [0xF0, 0x06])
      ⟨0x00, 0x00, 0x00, 0x8102, 0x01FD, 0x34⟩ [] 2 = true := by decide

theorem test_bne_taken :
    ends (start ⟨0x00, 0x00, 0x00, 0x8100, 0x01FD, 0x34⟩ [] [0xD0, 0x06])
      ⟨0x00, 0x00, 0x00, 0x8108, 0x01FD, 0x34⟩ [] 2 = true := by decide

theorem test_bne_not_taken :
    ends (start ⟨0x00, 0x00, 0x00, 0x8100, 0x01FD, 0x36⟩ [] [0xD0, 0x06])
      ⟨0x00, 0x00, 0x00, 0x8102, 0x01FD, 0x36⟩ [] 2 = true := by decide

theorem test_bmi_taken :
    ends (start ⟨0x00, 0x00, 0x00, 0x8100, 0x01FD, 0xB4⟩ [] [0x30, 0x06])
      ⟨0x00, 0x00, 0x00, 0x8108, 0x01FD, 0xB4⟩ [] 2 = true := by decide

theorem test_bmi_not_taken :
    ends (start ⟨0x00, 0x00, 0x00, 0x8100, 0x01FD, 0x34⟩ [] [0x30, 0x06])
      ⟨0x00, 0x00, 0x00, 0x8102, 0x01FD, 0x34⟩ [] 2 = true := by decide

theorem test_bpl_not_taken :
    ends (start ⟨0x00, 0x00, 0x00, 0x8100, 0x01FD, 0xB4⟩ [] [0x10, 0x06])
      ⟨0x00, 0x00, 0x00, 0x8102, 0x01FD, 0xB4⟩ [] 2 = true := by decide

theorem test_bvc_taken :
    ends (start ⟨0x00, 0x00, 0x00, 0x8100, 0x01FD, 0x34⟩ [] [0x50, 0x06])
      ⟨0x00, 0x00, 0x00, 0x8108, 0x01FD, 0x34⟩ [] 2 = true := by decide

theorem test_bvc_not_taken :
    ends (start ⟨0x00, 0x00, 0x00, 0x8100, 0x01FD, 0x74⟩ [] [0x50, 0x06])
      ⟨0x00, 0x00, 0x00, 0x8102, 0x01FD, 0x74⟩ [] 2 = true := by decide

theorem test_bvs_taken :
    ends (start ⟨0x00, 0x00, 0x00, 0x8100, 0x01FD, 0x74⟩ [] [0x70, 0x06])
      ⟨0x00, 0x00, 0x00, 0x8108, 0x01FD, 0x74⟩ [] 2 = true := by decide

theorem test_bvs_not_taken :
    ends (start ⟨0x00, 0x00, 0x00, 0x8100, 0x01FD, 0x34⟩ [] [0x70, 0x06])
      ⟨0x00, 0x00, 0x00, 0x8102, 0x01FD, 0x34⟩ [] 2 = true := by decide

theorem test_jmp_absolute :
    ends (start ⟨0x00, 0x00, 0x00, 0x8000, 0x01FD, 0x34⟩ [] [0x4C, 0x00, 0xC0])
      ⟨0x00, 0x00, 0x00, 0xC000, 0x01FD, 0x34⟩ [] 3 = true := by decide

theorem test_jsr :
    ends (start ⟨0x00, 0x00, 0x00, 0x8000, 0x01FD, 0x34⟩ [] [0x20, 0x10, 0x80])
      ⟨0x00, 0x00, 0x00, 0x8010, 0x01FB, 0x34⟩ [(0x01FC, 0x02), (0x01FD, 0x80)] 6 = true := by decide

theorem test_rts :
    ends (start ⟨0x00, 0x00, 0x00, 0x8000, 0x01FB, 0x34⟩ [(0x01FC, 0xFF), (0x01FD, 0x8F)] [0x60])
      ⟨0x00, 0x00, 0x00, 0x9000, 0x01FD, 0x34⟩ [(0x01FC, 0xFF), (0x01FD, 0x8F)] 6 = true := by decide

theorem test_rts_wraps :
    ends (start ⟨0x00, 0x00, 0x00, 0x8000, 0x01FB, 0x34⟩ [(0x01FC, 0xFF), (0x01FD, 0xFF)] [0x60])
      ⟨0x00, 0x00, 0x00, 0x0000, 0x01FD, 0x34⟩ [(0x01FC, 0xFF), (0x01FD, 0xFF)] 6 = true := by decide

theorem test_pha :
    ends (start ⟨0x42, 0x00, 0x00, 0x8000, 0x01FD, 0x34⟩ [] [0x48])
      ⟨0x42, 0x00, 0x00, 0x8001, 0x01FC, 0x34⟩ [(0x01FD, 0x42)] 3 = true := by decide

theorem test_php_sets_b :
    ends (start ⟨0x00, 0x00, 0x00, 0x8000, 0x01FD, 0x24⟩ [] [0x08])
      ⟨0x00, 0x00, 0x00, 0x8001, 0x01FC, 0x34⟩ [(0x01FD, 0x34)] 3 = true := by decide

theorem test_pla_zero :
    ends (start ⟨0x55, 0x00, 0x00, 0x8000, 0x01FC, 0x34⟩ [] [0x68])
      ⟨0x00, 0x00, 0x00, 0x8001, 0x01FD, 0x36⟩ [] 4 = true := by decide

theorem test_plp_forces_bit_5 :
    ends (start ⟨0x00, 0x00, 0x00, 0x8000, 0x01FC, 0x34⟩ [(0x01FD, 0xC3)] [0x28])
      ⟨0x00, 0x00, 0x00, 0x8001, 0x01FD, 0xE3⟩ [(0x01FD, 0xC3)] 4 = true := by decide

theorem test_clc :
    ends (start ⟨0x00, 0x00, 0x00, 0x8000, 0x01FD, 0xFF⟩ [] [0x18])
      ⟨0x00, 0x00, 0x00, 0x8001, 0x01FD, 0xFE⟩ [] 2 = true := by decide

theorem test_sec :
    ends (start ⟨0x00, 0x00, 0x00, 0x8000, 0x01FD, 0x34⟩ [] [0x38])
      ⟨0x00, 0x00, 0x00, 0x8001, 0x01FD, 0x35⟩ [] 2 = true := by decide

theorem test_cli :
    ends (start ⟨0x00, 0x00, 0x00, 0x8000, 0x01FD, 0x34⟩ [] [0x58])
      ⟨0x00, 0x00, 0x00, 0x8001, 0x01FD, 0x30⟩ [] 2 = true := by decide

theorem test_sei :
    ends (start ⟨0x00, 0x00, 0x00, 0x8000, 0x01FD, 0x30⟩ [] [0x78])
      ⟨0x00, 0x00, 0x00, 0x8001, 0x01FD, 0x34⟩ [] 2 = true := by decide

theorem test_clv :
    ends (start ⟨0x00, 0x00, 0x00, 0x8000, 0x01FD, 0x74⟩ [] [0xB8])
      ⟨0x00, 0x00, 0x00, 0x8001, 0x01FD, 0x34⟩ [] 2 = true := by decide

theorem test_cld :
    ends (start ⟨0x00, 0x00, 0x00, 0x8000, 0x01FD, 0x3C⟩ [] [0xD8])
      ⟨0x00, 0x00, 0x00, 0x8001, 0x01FD, 0x34⟩ [] 2 = true := by decide

theorem test_sed :
    ends (start ⟨0x00, 0x00, 0x00, 0x8000, 0x01FD, 0x34⟩ [] [0xF8])
      ⟨0x00, 0x00, 0x00, 0x8001, 0x01FD, 0x3C⟩ [] 2 = true := by decide

theorem test_nop :
    ends (start ⟨0x00, 0x00, 0x00, 0x8000, 0x01FD, 0xF5⟩ [] [0xEA])
      ⟨0x00, 0x00, 0x00, 0x8001, 0x01FD, 0xF5⟩ [] 2 = true := by decide

theorem test_brk_enters_the_vector :
    ends (placeBytes [0x00, 0x90] 0xFFFE (start ⟨0x00, 0x00, 0x00, 0x8000, 0x01FD, 0x30⟩ [] [0x00]))
      ⟨0x00, 0x00, 0x00, 0x9000, 0x01FA, 0x34⟩ [(0x01FB, 0x30), (0x01FC, 0x02), (0x01FD, 0x80)] 7 = true := by decide

theorem test_brk_masked :
    ends (start ⟨0x00, 0x00, 0x00, 0x8000, 0x01FD, 0x34⟩ [] [0x00])
      ⟨0x00, 0x00, 0x00, 0x8002, 0x01FA, 0x34⟩ [(0x01FB, 0x34), (0x01FC, 0x02), (0x01FD, 0x80)] 7 = true := by decide

theorem test_rti :
    ends (start ⟨0x00, 0x00, 0x00, 0x9000, 0x01FA, 0x34⟩ [(0x01FB, 0x30), (0x01FC, 0x02), (0x01FD, 0x80)] [0x40])
      ⟨0x00, 0x00, 0x00, 0x8002, 0x01FD, 0x30⟩ [(0x01FB, 0x30), (0x01FC, 0x02), (0x01FD, 0x80)] 6 = true := by decide

theorem test_rti_forces_bit_5 :
    ends (start ⟨0x00, 0x00, 0x00, 0x9000, 0x01FA, 0x34⟩ [(0x01FC, 0x34), (0x01FD, 0x12)] [0x40])
      ⟨0x00, 0x00, 0x00, 0x1234, 0x01FD, 0x20⟩ [(0x01FC, 0x34), (0x01FD, 0x12)] 6 = true := by decide

theorem test_lax :
    ends (start ⟨0x00, 0x00, 0x00, 0x8000, 0x01FD, 0x34⟩ [(0x0010, 0x8F)] [0xA7, 0x10])
      ⟨0x8F, 0x8F, 0x00, 0x8002, 0x01FD, 0xB4⟩ [(0x0010, 0x8F)] 3 = true := by decide

theorem test_lax_post_indexed :
    ends (start ⟨0x01, 0x02, 0x01, 0x8000, 0x01FD, 0x34⟩ [(0x0020, 0xFF), (0x0021, 0x02)] [0xB3, 0x20])
      ⟨0x00, 0x00, 0x01, 0x8002, 0x01FD, 0x36⟩ [(0x0020, 0xFF), (0x0021, 0x02)] 5 = true := by decide

theorem test_sax :
    ends (start ⟨0xF0, 0x3C, 0x00, 0x8000, 0x01FD, 0xB6⟩ [] [0x87, 0x10])
      ⟨0xF0, 0x3C, 0x00, 0x8002, 0x01FD, 0xB6⟩ [(0x0010, 0x30)] 3 = true := by decide

theorem test_sax_pre_indexed :
    ends (start ⟨0xFF, 0x04, 0x00, 0x8000, 0x01FD, 0x34⟩ [(0x0025, 0x03)] [0x83, 0x20])
      ⟨0xFF, 0x04, 0x00, 0x8002, 0x01FD, 0x34⟩ [(0x0025, 0x03), (0x0300, 0x04)] 6 = true := by decide

theorem test_dcp :
    ends (start ⟨0x40, 0x00, 0x00, 0x8000, 0x01FD, 0x34⟩ [(0x0010, 0x41)] [0xC7, 0x10])
      ⟨0x40, 0x00, 0x00, 0x8002, 0x01FD, 0x37⟩ [(0x0010, 0x40)] 5 = true := by decide

theorem test_dcp_wraps_memory :
    ends (start ⟨0x00, 0x00, 0x00, 0x8000, 0x01FD, 0x34⟩ [] [0xC7, 0x10])
      ⟨0x00, 0x00, 0x00, 0x8002, 0x01FD, 0x34⟩ [(0x0010, 0xFF)] 5 = true := by decide

theorem test_isb :
    ends (start ⟨0x10, 0x00, 0x00, 0x8000, 0x01FD, 0x35⟩ [(0x0010, 0x04)] [0xE7, 0x10])
      ⟨0x0B, 0x00, 0x00, 0x8002, 0x01FD, 0x35⟩ [(0x0010, 0x05)] 5 = true := by decide

theorem test_isb_wraps_memory :
    ends (start ⟨0x10, 0x00, 0x00, 0x8000, 0x01FD, 0x34⟩ [(0x0010, 0xFF)] [0xE7, 0x10])
      ⟨0x0F, 0x00, 0x00, 0x8002, 0x01FD, 0x35⟩ [] 5 = true := by decide

theorem test_slo :
    ends (start ⟨0x01, 0x00, 0x00, 0x8000, 0x01FD, 0x34⟩ [(0x0010, 0xC0)] [0x07, 0x10])
      ⟨0x81, 0x00, 0x00, 0x8002, 0x01FD, 0xB5⟩ [(0x0010, 0x80)] 5 = true := by decide

theorem test_sre :
    ends (start ⟨0xFF, 0x00, 0x00, 0x8000, 0x01FD, 0x34⟩ [(0x0010, 0x03)] [0x47, 0x10])
      ⟨0xFE, 0x00, 0x00, 0x8002, 0x01FD, 0xB5⟩ [(0x0010, 0x01)] 5 = true := by decide

theorem test_rla :
    ends (start ⟨0x0F, 0x00, 0x00, 0x8000, 0x01FD, 0x35⟩ [(0x0010, 0x82)] [0x27, 0x10])
      ⟨0x05, 0x00, 0x00, 0x8002, 0x01FD, 0x35⟩ [(0x0010, 0x05)] 5 = true := by decide

theorem test_rra :
    ends (start ⟨0x10, 0x00, 0x00, 0x8000, 0x01FD, 0x34⟩ [(0x0010, 0x03)] [0x67, 0x10])
      ⟨0x12, 0x00, 0x00, 0x8002, 0x01FD, 0x34⟩ [(0x0010, 0x01)] 5 = true := by decide

theorem test_rra_absolute_y :
    ends (start ⟨0x7F, 0x00, 0x01, 0x8000, 0x01FD, 0x35⟩ [] [0x7B, 0x00, 0x02])
      ⟨0xFF, 0x00, 0x01, 0x8003, 0x01FD, 0xB4⟩ [(0x0201, 0x80)] 7 = true := by decide

/-! Faults and interrupts: rows of spec/95 2.5, 2.8 and 2.9. -/

theorem test_jsr_second_push_overflows :
    faults (start ⟨0x00, 0x00, 0x00, 0x8000, 0x0101, 0x34⟩ [] [0x20, 0x10, 0x80])
      (.stackPointerOverflow 0x00FF) = true := by decide

theorem test_nmi_third_push_overflows :
    faults ({ start ⟨0x00, 0x00, 0x00, 0x8123, 0x0102, 0x34⟩ [] [0xEA] with int := ⟨true, false⟩ })
      (.stackPointerOverflow 0x00FF) = true := by decide

theorem test_undefined_opcode_eb :
    faults (start ⟨0x05, 0x00, 0x00, 0x8000, 0x01FD, 0x34⟩ [] [0xEB, 0x01])
      (.invalidOpcode 0xEB) = true := by decide

theorem test_pha_overflows :
    faults (start ⟨0x77, 0x00, 0x00, 0x8000, 0x0100, 0x34⟩ [] [0x48])
      (.stackPointerOverflow 0x00FF) = true := by decide

theorem test_pla_underflows :
    faults (start ⟨0x00, 0x00, 0x00, 0x8000, 0x01FF, 0x34⟩ [] [0x68])
      (.stackPointerUnderflow 0x0200) = true := by decide

theorem test_rts_second_pop_underflows :
    faults (start ⟨0x00, 0x00, 0x00, 0x8000, 0x01FE, 0x34⟩ [] [0x60])
      (.stackPointerUnderflow 0x0200) = true := by decide

theorem test_rti_third_pop_underflows :
    faults (start ⟨0x00, 0x00, 0x00, 0x8000, 0x01FD, 0x34⟩ [] [0x40])
      (.stackPointerUnderflow 0x0200) = true := by decide

theorem test_nmi_is_not_masked :
    endsWith (fun t => (t.cpu, t.wram, t.int))
      ({ withVectors (start ⟨0x00, 0x00, 0x00, 0x8123, 0x01FD, 0x34⟩ [] [0xEA]) with int := ⟨true, false⟩ })
      (⟨0x00, 0x00, 0x00, 0x9001, 0x01FA, 0x24⟩, [(0x01FB, 0x24), (0x01FC, 0x23), (0x01FD, 0x81)], ⟨false, false⟩)
      = true := by
  decide

theorem test_nmi_clears_b :
    endsWith (fun t => (t.cpu, t.wram, t.int))
      ({ withVectors (start ⟨0x00, 0x00, 0x00, 0x8123, 0x01FD, 0xB1⟩ [] [0xEA]) with int := ⟨true, false⟩ })
      (⟨0x00, 0x00, 0x00, 0x9001, 0x01FA, 0xA5⟩, [(0x01FB, 0xA1), (0x01FC, 0x23), (0x01FD, 0x81)], ⟨false, false⟩)
      = true := by
  decide

theorem test_irq_entry :
    endsWith (fun t => (t.cpu, t.wram, t.int))
      ({ withVectors (start ⟨0x00, 0x00, 0x00, 0x8123, 0x01FD, 0x30⟩ [] [0xEA]) with int := ⟨false, true⟩ })
      (⟨0x00, 0x00, 0x00, 0xA001, 0x01FA, 0x24⟩, [(0x01FB, 0x20), (0x01FC, 0x23), (0x01FD, 0x81)], ⟨false, false⟩)
      = true := by
  decide

theorem test_irq_masked_stays_pending :
    endsWith (fun t => (t.cpu, t.wram, t.int))
      ({ withVectors (start ⟨0x00, 0x00, 0x00, 0x8123, 0x01FD, 0x34⟩ [] [0xEA]) with int := ⟨false, true⟩ })
      (⟨0x00, 0x00, 0x00, 0x8124, 0x01FD, 0x34⟩, [], ⟨false, true⟩) = true := by decide

theorem test_nmi_before_irq :
    endsWith (fun t => (t.cpu, t.wram, t.int))
      ({ withVectors (start ⟨0x00, 0x00, 0x00, 0x8123, 0x01FD, 0x30⟩ [] [0xEA]) with int := ⟨true, true⟩ })
      (⟨0x00, 0x00, 0x00, 0x9001, 0x01FA, 0x24⟩, [(0x01FB, 0x20), (0x01FC, 0x23), (0x01FD, 0x81)], ⟨false, true⟩)
      = true := by
  decide

/-! The machine around the instruction. -/

theorem test_reset_registers : State.reset.cpu = ⟨0x00, 0x00, 0x00, 0x0000, 0x01FD, 0b00110100⟩ := by decide

theorem test_cpu_reset_reads_its_vector : (stateOf (cpuReset (placeBytes [0x23, 0xC1] 0xFFFC
    { State.reset with cpu := ⟨0x55, 0x01, 0x02, 0x0000, 0x0110, 0xFF⟩ }))).map (·.cpu) =
    some ⟨0x00, 0x00, 0x00, 0xC123, 0x01FD, 0x34⟩ := by decide

theorem test_withFetchWord_runs_its_instruction :
    endsWith (fun t => (t.cpu.a, t.cpu.pc)) (State.reset.withFetchWord 16 0x05A9) (0x05, 0x0002) = true := by decide

theorem test_withFetchWord_pads_with_zeros :
    endsWith (fun t => t.cpu.pc) (State.reset.withFetchWord 8 0x4C) 0x0000 = true := by decide

theorem test_dma_page_8_faults :
    faults { start ⟨0x08, 0x00, 0x00, 0x8000, 0x01FD, 0x34⟩ [] [0xEA] with dma := ⟨true, 0x08⟩ }
      (.dmaSourceOutOfRange 0x08) = true := by decide

theorem test_irqAssert_is_serviced_in_the_same_step :
    endsWith (fun t => (t.cpu.pc, t.int.irq, t.schedule))
      { withVectors (start ⟨0x00, 0x00, 0x00, 0x8000, 0x01FD, 0x30⟩ [] [0xEA]) with schedule := [[.irqAssert]] }
      (0xA001, false, []) = true := by decide

/-! The CPU bus and its devices: spec/95 2.10, 2.12, 2.15. -/

/-- Bus writes in a row. -/
def writeAll : List (Word × Byte) → State → Result Unit
  | [], s => .ok () s
  | (a, v) :: rest, s => (memWrite a v s).bind fun _ s => writeAll rest s

theorem test_working_ram_mirrors :
    (stateOf (memWrite 0x0FFF 0xBB State.reset)).bind (fun t => valueOf (memRead 0x1FFF t)) = some 0xBB := by decide

theorem test_port_mirrors : (stateOf (memWrite 0x3FF8 0x84 State.reset)).map (·.ppu.control) = some 0x84 := by decide

theorem test_status_read_clears_vblank :
    (fun s => (valueOf (memRead 0x200A s), (stateOf (memRead 0x200A s)).map (·.ppu.status)))
      { State.reset with ppu := { State.reset.ppu with status := 0x80 } } = (some 0x80, some 0x00) := by decide

theorem test_unimplemented_ranges_read_zero :
    [0x4000, 0x4014, 0x4015, 0x4018, 0x401F, 0x4020, 0x5000, 0x7FFF].all
      (fun a => decide (valueOf (memRead a State.reset) = some 0x00)) = true := by decide

theorem test_half_size_rom_is_mirrored :
    [0x8000, 0xC000, 0xBFFF, 0xFFFF].map (fun a => valueOf (memRead a { State.reset with config :=
      { Config.default with prgRom := some ⟨.kib16, [(0x0000, 0x11), (0x3FFF, 0x22)]⟩ } })) =
    [some 0x11, some 0x11, some 0x22, some 0x22] := by decide

theorem test_full_size_rom_is_linear :
    [0x8000, 0xC000].map (fun a => valueOf (memRead a { State.reset with config :=
      { Config.default with prgRom := some ⟨.kib32, [(0x0000, 0x11), (0x4000, 0x33)]⟩ } })) =
    [some 0x11, some 0x33] := by decide

theorem test_video_data_is_buffered :
    (stateOf (writeAll [(0x2006, 0x20), (0x2006, 0x00)]
      { State.reset with vram := [(0x000, 0xAA), (0x001, 0xBB)] })).bind (fun t => valueOf (readBytes 0x2007 3 t)) =
    some [0x00, 0xAA, 0xBB] := by decide

theorem test_video_address_increments_by_32 :
    (stateOf (writeAll [(0x2000, 0x04), (0x2006, 0x20), (0x2006, 0x00)]
      { State.reset with vram := [(0x000, 0xAA), (0x020, 0xCC)] })).bind (fun t => valueOf (readBytes 0x2007 3 t)) =
    some [0x00, 0xAA, 0xCC] := by decide

theorem test_palette_read_is_immediate :
    (stateOf (writeAll [(0x2006, 0x3F), (0x2006, 0x00), (0x2007, 0x0F), (0x2006, 0x3F), (0x2006, 0x10)]
      State.reset)).bind (fun t => valueOf (memRead 0x2007 t)) = some 0x0F := by decide

theorem test_toggle_is_shared_by_scroll_and_address :
    (stateOf (writeAll [(0x2006, 0x3F), (0x2006, 0x11), (0x2005, 0x12), (0x2006, 0x34)] State.reset)).map
      (fun t => (t.ppu.scrollX, t.ppu.videoRamAddress, t.ppu.writeToggle)) = some (0x12, 0x3F34, false) := by decide

theorem test_video_address_wraps :
    (stateOf (writeAll [(0x2006, 0xFF), (0x2006, 0xFF), (0x2007, 0x3A)] State.reset)).map
      (fun t => (t.palette, t.ppu.videoRamAddress)) = some ([(0x1F, 0x3A)], 0x0000) := by decide

theorem test_sprite_data_writes_increment :
    (stateOf (writeAll [(0x2003, 0xFE), (0x2004, 0x11), (0x2004, 0x22), (0x2004, 0x33)] State.reset)).map
      (fun t => (t.ppu.spriteRam, t.ppu.spriteRamAddress)) =
    some ([(0x00, 0x33), (0xFE, 0x11), (0xFF, 0x22)], 0x01) := by decide

theorem test_keypad_shifts_out_its_byte :
    (stateOf (writeAll [(0x4016, 0x01), (0x4016, 0x00)]
      { State.reset with keypad1 := { Keypad.powerOn with inputs := [0x85] } })).bind
      (fun t => valueOf (readBytes 0x4016 9 t)) =
    some [0x01, 0x00, 0x01, 0x00, 0x00, 0x00, 0x00, 0x01, 0x01] := by decide

theorem test_dma_request_is_latched :
    (stateOf (memWrite 0x4014 0x03 State.reset)).map (fun t => (t.dma, t.ppu.spriteRam)) = some (⟨true, 0x03⟩, []) := by
  decide

theorem test_dma_copies_in_order_and_keeps_the_sprite_address :
    (fun t => (t.ppu.spriteRam, t.ppu.spriteRamAddress)) (copyToSpriteRam 0x0300 3 { State.reset with
      wram := [(0x0300, 0x03), (0x0301, 0x0A)], ppu := { State.reset.ppu with spriteRamAddress := 0x40 } }) =
    ([(0x00, 0x03), (0x01, 0x0A)], 0x40) := by decide

/-! The PPU bus and the PPU step: spec/95 2.11, 2.13, 2.14, T6, T7. -/

theorem test_palette_aliases :
    (stateOf ((ppuBusWrite 0x3F10 0x2D State.reset).bind fun _ t => ppuBusWrite 0x3F04 0x15 t)).map (fun t =>
      [0x3F00, 0x3F10, 0x3F20, 0x3FE0, 0x7F00, 0x3F14].map fun a => valueOf (ppuBusRead a t)) =
    some [some 0x2D, some 0x2D, some 0x2D, some 0x2D, some 0x2D, some 0x15] := by decide

theorem test_name_tables :
    (stateOf (ppuBusWrite 0x2C00 0x32 State.reset)).map (fun t =>
      [0x2000, 0x2400, 0x2800, 0x2C00, 0x3C00].map fun a => valueOf (ppuBusRead a t)) =
    some [some 0x00, some 0x00, some 0x00, some 0x32, some 0x32] := by decide

/-- The reset machine with its PPU at a place in the frame. -/
def ppuAt (cycle line : Nat) (control mask : Byte) (spriteRam : Memory) : State :=
  { State.reset with ppu := { State.reset.ppu with
      cycle := cycle, line := line, control := control, mask := mask, spriteRam := spriteRam } }

theorem test_frame_end :
    (stateOf (ppuStep { ppuAt 340 261 0x00 0x00 [] with
      ppu := { (ppuAt 340 261 0x00 0x00 []).ppu with status := 0xC0 }, int := ⟨true, false⟩ })).map
      (fun t => (framePosition t, t.ppu.status, t.int.nmi, t.render.count)) = some (0, 0x00, false, 1) := by decide

theorem test_vblank_start_asserts_nmi :
    (stateOf (ppuStep (ppuAt 340 239 0x80 0x00 []))).map (fun t => (t.ppu.line, t.ppu.status, t.int.nmi)) =
    some (240, 0x80, true) := by decide

theorem test_sprite_zero_hit_is_tested_before_the_advance :
    (stateOf (ppuSteps 1 (ppuAt 340 31 0x00 0x18 [(0, 0x20)]))).map (·.ppu.status) = some 0x00 ∧
    (stateOf (ppuSteps 2 (ppuAt 340 31 0x00 0x18 [(0, 0x20)]))).map (·.ppu.status) = some 0x40 := by decide

/-- The setup of spec/95 2.14, with the three sprites of its second part. -/
def drawing : State :=
  { ppuAt 16 43 0x10 0x18 ([(0, 43), (1, 5), (3, 16), (4, 43), (5, 5), (6, 0x61), (7, 17), (8, 36), (9, 5), (10, 0x80),
      (11, 250)] ++ (List.range 61).map fun k => (4 * (k + 3), 0xF8)) with
    chr := some [(0x50, 0x81), (0x57, 0x18), (0x58, 0x80), (0x5F, 0x18), (0x1213, 0xCA), (0x121B, 0xA6)]
    vram := [(0x0A2, 0x21), (0x3C8, 0x6C)]
    palette := [(0x00, 0x0F), (0x0C, 0x0F), (0x0D, 0x01), (0x0E, 0x02), (0x0F, 0x03), (0x11, 0x21), (0x12, 0x22),
      (0x13, 0x23), (0x15, 0x25), (0x16, 0x26), (0x17, 0x27)] }

/-- The colour numbers of `n` pixels of row 43 from column `x` on; none where nothing was drawn. -/
def colours (x n : Nat) (t : State) : List (Option Nat) :=
  (List.range n).map fun k =>
    match gridGet .black t.ppu.image 43 (x + k) with
    | .black => none
    | .colour c => some c.toNat

theorem test_background_group :
    (stateOf (drawBackgroundGroup 16 43 drawing)).map
      (fun t => (colours 15 10 t, (List.range 8).map fun k => gridGet false t.ppu.bgOpaque 43 (16 + k))) =
    some ([none, some 0x03, some 0x01, some 0x02, some 0x0F, some 0x01, some 0x02, some 0x03, some 0x0F, none],
      [true, true, true, false, true, true, true, false]) := by decide

theorem test_background_paging :
    (fun place => (nameAddress place, attributeAddress place, place.fy))
      (bgCoordinates { drawing.ppu with control := 0x11, scrollX := 0x0C, scrollY := 0xF0 } 248 0) =
    (0x2800, 0x2BC0, 0) := by decide

theorem test_sprite_pixels :
    (stateOf ((drawBackgroundGroup 16 43 drawing).bind fun _ t => (drawBackgroundGroup 24 43 t).bind fun _ t =>
      (drawSprite 2 t).bind fun _ t => (drawSprite 1 t).bind fun _ t => drawSprite 0 t)).map
      (fun t => (colours 16 10 t, colours 250 1 t)) =
    some ([some 0x23, some 0x01, some 0x02, some 0x0F, some 0x01, some 0x02, some 0x03, some 0x21, some 0x27,
      some 0x0F],
      [some 0x23]) := by decide

/-! For each statement with hypotheses, states and operands that meet them together. -/

/-- An operation that ends with `v` has a state after it. -/
theorem ok_of_valueOf {α : Type} {r : Result α} {v : α} (h : valueOf r = some v) : ∃ t, r = .ok v t := by
  cases r with
  | ok w t => cases h; exact ⟨t, rfl⟩
  | fault f => cases h

/-- A step that looks like something answers a next state. -/
theorem next_of_endsWith {α : Type} [DecidableEq α] {look : State → α} {s : State} {want : α}
    (h : endsWith look s want = true) : ∃ t, step s = .next t ∧ look t = want := by
  unfold endsWith at h
  split at h
  · exact ⟨_, ‹_›, of_decide_eq_true h⟩
  · cases h

/-- A step that ends in a fault. -/
theorem fault_of_faults {s : State} {f : Fault} (h : faults s f = true) : step s = .fault f := by
  unfold faults at h
  split at h
  · next g hg => rw [hg, of_decide_eq_true h]
  · cases h

/-- The reset machine is connected. -/
theorem reset_connected : Connected State.reset := ⟨rfl, rfl⟩

theorem witness_DecodeOfEncodeGivesTheInstructionBack :
    (Instr.bne (-128)).wellFormed = true ∧ (Instr.bvs 127).wellFormed = true ∧
      (Instr.ldaAbsolute 0xFFFF).wellFormed = true := by decide

theorem witness_EncodeOfDecodeGivesTheBytesBack :
    decode [0xD0, 0x80, 0xEA] = .instr (.bne (-128)) [0xEA] ∧ decode [0x70, 0x7F] = .instr (.bvs 127) [] := by decide

theorem witness_UndefinedOpcodesRaiseInvalidOpcode : ∃ s s1 s2 opcode, s.fault = none ∧
    beforeFetch s = .ok () s1 ∧ fetch s1 = .ok opcode s2 ∧ opcode ∈ undefinedOpcodes :=
  let s := start State.reset.cpu [(0x0000, 0xFC)] []
  ⟨s, s, s.setPc 0x0001, 0xFC, by decide, by decide, by decide, by decide⟩

/-- A machine about to run LDA #$05 at 0x8000. -/
def running : State := start ⟨0x00, 0x00, 0x00, 0x8000, 0x01FD, 0x34⟩ [] [0xA9, 0x05]

theorem running_quiet : Quiet running := ⟨rfl, rfl, rfl, rfl, .inl rfl⟩

theorem running_next : ∃ t, step running = .next t ∧ t.cpu.a = 0x05 := next_of_endsWith (by decide)

theorem witness_StepRunsTheDecodedInstruction :
    (∃ s1 s2, running.fault = none ∧ beforeFetch running = .ok () s1 ∧
      decode [0xA9, 0x05] = .instr (.ldaImmediate 0x05) [] ∧ fetchBytes 2 s1 = .ok [0xA9, 0x05] s2) ∧
    (∀ k, k < [0xA9, 0x05].length →
      storedByte running (running.cpu.pc + BitVec.ofNat 16 k) = ([0xA9, 0x05] : List Byte)[k]?) ∧ Quiet running :=
  ⟨(ok_of_valueOf (by decide)).elim fun s2 h => ⟨running, s2, rfl, by decide, by decide, h⟩, by decide, running_quiet⟩

theorem witness_ProgramCounterLaw : ∃ t u, running.schedule = [] ∧ NoInterrupt running ∧
    prepare running = .ok (.ldaImmediate 0x05) t ∧ transfersControl (Instr.ldaImmediate 0x05).row.name = false ∧
    branchCondition (Instr.ldaImmediate 0x05).row.name t = false ∧ step running = .next u :=
  running_next.elim fun u h => (ok_of_valueOf (by decide)).elim fun t ht =>
    ⟨t, u, rfl, running_quiet.2.2.2, ht, rfl, rfl, h.1⟩

theorem witness_FaultsAreTerminalAndTheFirstDecides :
    (∃ (s : State) (f : Fault), s.fault = some f) ∧ (∃ (s : State) (f : Fault), s.fault = none ∧ step s = .fault f) ∧
    (∃ s t, step s = .next t) ∧
    (∃ s : State, s.fault = none ∧ s.schedule = [] ∧ s.dma.pending = true ∧ 8 ≤ s.dma.page.toNat) ∧
    ∃ s : State, s.fault = none ∧ s.schedule = [] ∧ s.dma.pending = false ∧ s.int.nmi = true ∧ s.cpu.sp = 0x0100 :=
  ⟨⟨{ State.reset with fault := some (.invalidOpcode 0x02) }, _, rfl⟩, ⟨bare.setPc 0x8000,
      .resourceNotConnected .programRom, rfl, fault_of_faults (by decide)⟩,
    ⟨running, running_next.imp fun _ h => h.1⟩, ⟨{ State.reset with dma := ⟨true, 0x08⟩ }, rfl, rfl, rfl, by decide⟩,
    ⟨{ State.reset.setSp 0x0100 with int := ⟨true, false⟩ }, rfl, rfl, rfl, rfl, rfl⟩⟩

theorem witness_IndirectModesDereferencePointers :
    State.reset.config.pageWrapPointers = false ∧
    { Config.default with pageWrapPointers := true }.pageWrapPointers = true ∧
    ∃ t u, memRead 0x00FF State.reset = .ok 0x00 t ∧ memRead (0x00FF + 1) t = .ok 0x00 u :=
  ⟨rfl, rfl, State.reset, State.reset, by decide, by decide⟩

/-- What `ReadsThen` assumes can be met, of a read that ends well and of one that faults. -/
def ReadWitness (name : Mnemonic) : Prop :=
  (∃ i s m t, i.row.name = name ∧ Connected s ∧ operandByte (formOf i) s = .ok m t) ∧
    ∃ i s f, i.row.name = name ∧ operandByte (formOf i) s = .fault f

theorem readWitness_of {name : Mnemonic} (i : Instr) (hn : i.row.name = name) (hf : formOf i = .absolute 0x8000) :
    ReadWitness name :=
  ⟨⟨i, State.reset, 0x00, State.reset, hn, reset_connected, by rw [hf]; rfl⟩,
    ⟨i, bare, .resourceNotConnected .programRom, hn, by rw [hf]; rfl⟩⟩

/-- What `StoresByte` assumes can be met. -/
def StoreWitness (name : Mnemonic) : Prop :=
  ∃ i s a t u, i.row.name = name ∧ Connected s ∧ resolve (formOf i) s = .ok (.address a) t ∧
    memWrite a 0x5A t = .ok () u

theorem storeWitness_of {name : Mnemonic} (i : Instr) (hn : i.row.name = name) (hf : formOf i = .absolute 0x8000) :
    StoreWitness name :=
  ⟨i, State.reset, 0x8000, State.reset, State.reset, hn, reset_connected, by rw [hf]; rfl, rfl⟩

/-- What `ModifiesMemory` assumes can be met. -/
def ModifyWitness (name : Mnemonic) : Prop :=
  ∃ i s a t m u w, i.row.name = name ∧ i.row.mode ≠ .accumulator ∧ Connected s ∧
    resolve (formOf i) s = .ok (.address a) t ∧ memRead a t = .ok m u ∧ memWrite a 0x5A u = .ok () w

theorem modifyWitness_of {name : Mnemonic} (i : Instr) (hn : i.row.name = name) (hm : i.row.mode ≠ .accumulator)
    (hf : formOf i = .absolute 0x8000) : ModifyWitness name :=
  ⟨i, State.reset, 0x8000, State.reset, 0x00, State.reset, State.reset, hn, hm, reset_connected, by rw [hf]; rfl, rfl,
    rfl⟩

theorem witness_LoadsSetTheirRegisterAndNZ : ReadWitness .LDA ∧ ReadWitness .LDX ∧ ReadWitness .LDY :=
  ⟨readWitness_of (.ldaAbsolute 0x8000) rfl rfl, readWitness_of (.ldxAbsolute 0x8000) rfl rfl,
    readWitness_of (.ldyAbsolute 0x8000) rfl rfl⟩

theorem witness_StoresWriteTheirRegister : StoreWitness .STA ∧ StoreWitness .STX ∧ StoreWitness .STY :=
  ⟨storeWitness_of (.staAbsolute 0x8000) rfl rfl, storeWitness_of (.stxAbsolute 0x8000) rfl rfl,
    storeWitness_of (.styAbsolute 0x8000) rfl rfl⟩

theorem witness_StoreThenReadInWorkingRam :
    (0x1FFF : Word).toNat < 0x2000 ∧ (0x07FF : Word).toNat < 0x2000 ∧ (0x1FFF : Word).toNat % 0x800 = 0x07FF ∧
      (0x0000 : Word).toNat < 0x2000 ∧ (0x0000 : Word).toNat % 0x800 ≠ 0x07FF := by decide

theorem witness_AdcAddsWithCarry : ReadWitness .ADC := readWitness_of (.adcAbsolute 0x8000) rfl rfl

theorem witness_SbcSubtractsWithBorrow : ReadWitness .SBC := readWitness_of (.sbcAbsolute 0x8000) rfl rfl

theorem witness_DecimalFlagIsInert :
    (Instr.adcImmediate 0x01).row.name ∉ [Mnemonic.PHP, .BRK, .PLP, .RTI, .CLD, .SED] := by decide

theorem witness_ComparesSetCNZ : ReadWitness .CMP ∧ ReadWitness .CPX ∧ ReadWitness .CPY :=
  ⟨readWitness_of (.cmpAbsolute 0x8000) rfl rfl, readWitness_of (.cpxAbsolute 0x8000) rfl rfl,
    readWitness_of (.cpyAbsolute 0x8000) rfl rfl⟩

theorem witness_IncDecMemory : ModifyWitness .INC ∧ ModifyWitness .DEC :=
  ⟨modifyWitness_of (.incAbsolute 0x8000) rfl (by decide) rfl,
      modifyWitness_of (.decAbsolute 0x8000) rfl (by decide) rfl⟩

theorem witness_LogicalOperationsOnA : ReadWitness .AND ∧ ReadWitness .ORA ∧ ReadWitness .EOR :=
  ⟨readWitness_of (.andAbsolute 0x8000) rfl rfl, readWitness_of (.oraAbsolute 0x8000) rfl rfl,
    readWitness_of (.eorAbsolute 0x8000) rfl rfl⟩

theorem witness_BitTestsMemory : ReadWitness .BIT := readWitness_of (.bitAbsolute 0x8000) rfl rfl

theorem witness_ShiftsAndRotates :
    ModifyWitness .ASL ∧ ModifyWitness .LSR ∧ ModifyWitness .ROL ∧ ModifyWitness .ROR :=
  ⟨modifyWitness_of (.aslAbsolute 0x8000) rfl (by decide) rfl,
      modifyWitness_of (.lsrAbsolute 0x8000) rfl (by decide) rfl,
    modifyWitness_of (.rolAbsolute 0x8000) rfl (by decide) rfl,
      modifyWitness_of (.rorAbsolute 0x8000) rfl (by decide) rfl⟩

theorem witness_JumpSetsPc : ∃ a t, Connected State.reset ∧
    resolve (.indirectAbsolute 0x02FF) State.reset = .ok (.address a) t :=
  ⟨0x0000, State.reset, reset_connected, by decide⟩

/-- The reset machine with `SP` set. -/
def stackAt (sp : Word) : State := State.reset.setSp sp

theorem witness_SubroutineCallAndReturn :
    (0x0102 ≤ (stackAt 0x0102).cpu.sp.toNat ∧ (stackAt 0x0102).cpu.sp.toNat ≤ 0x01FF) ∧
    (0x0100 ≤ (stackAt 0x01FD).cpu.sp.toNat ∧ (stackAt 0x01FD).cpu.sp.toNat ≤ 0x01FD) ∧
    (StackInPage (stackAt 0x0101) ∧ (stackAt 0x0101).cpu.sp.toNat ≤ 0x0101) ∧
    (StackInPage (stackAt 0x01FE) ∧ 0x01FE ≤ (stackAt 0x01FE).cpu.sp.toNat) ∧
    StackInPage (stackAt 0x0102) ∧ 0x0102 ≤ (stackAt 0x0102).cpu.sp.toNat := by
  unfold StackInPage; decide

theorem witness_StackByteInstructions :
    (0x0101 ≤ (stackAt 0x0101).cpu.sp.toNat ∧ (stackAt 0x0101).cpu.sp.toNat ≤ 0x01FF) ∧
    0x0100 ≤ (stackAt 0x01FE).cpu.sp.toNat ∧ (stackAt 0x01FE).cpu.sp.toNat ≤ 0x01FE := by decide

theorem witness_StackFaultsAtThePageEnds :
    StackInPage (stackAt 0x0100) ∧ StackInPage (stackAt 0x01FF) ∧
    faults (start { State.reset.cpu with sp := 0x0100, pc := 0x8000 } []
      [0x48]) (.stackPointerOverflow 0x00FF) = true ∧
    faults (start { State.reset.cpu with sp := 0x01FF, pc := 0x8000 } []
      [0x68]) (.stackPointerUnderflow 0x0200) = true ∧
    (stackAt 0x0102).cpu.sp.toNat ≤ 0x0102 ∧ ¬ (stackAt 0x0103).cpu.sp.toNat ≤ 0x0102 := by
  unfold StackInPage; decide

theorem test_interrupt_entry_room :
    takeInterrupt nmiVector (stackAt 0x0102) = .fault (.stackPointerOverflow 0x00FF) ∧
    valueOf (takeInterrupt nmiVector (stackAt 0x0103)) = some () := by decide

/-- A machine without program ROM and character memory whose video address is the last palette cell. -/
def paletteEnd : State := { bare with ppu := { bare.ppu with videoRamAddress := 0x3FFF } }

theorem witness_BeforeFetchFaults :
    (∃ s f, hostPart s = .fault f) ∧
    (∃ s t f, hostPart s = .ok () t ∧ transferIfRequested t = .fault f) ∧
    (∃ s t u f, hostPart s = .ok () t ∧ transferIfRequested t = .ok () u ∧ handleInterrupts u = .fault f) ∧
    (∃ (s : State) (f : Fault), pushFrame (s.setFlag .B false) = .fault f) ∧
    (∃ (s t : State) (f : Fault), pushFrame (s.setFlag .B false) = .ok () t ∧
      readWord nmiVector (t.setFlag .I true) = .fault f) ∧
    ∃ (s : State) (f : Fault), s.fault = none ∧ beforeFetch s = .fault f :=
  ⟨⟨{ bare with schedule := [[.cpuReset]] }, .resourceNotConnected .programRom, rfl⟩,
    ⟨{ bare with dma := ⟨true, 0x08⟩ }, _, .dmaSourceOutOfRange 0x08, rfl, rfl⟩,
    ⟨{ bare with int := ⟨true, false⟩ }, _, _, .resourceNotConnected .programRom, rfl, rfl, rfl⟩,
    ⟨stackAt 0x0100, .stackPointerOverflow 0x00FF, rfl⟩,
    ⟨bare, _, .resourceNotConnected .programRom, rfl, rfl⟩,
    ⟨{ bare with int := ⟨true, false⟩ }, .resourceNotConnected .programRom, rfl, rfl⟩⟩

theorem witness_FetchExecuteAndPictureFaults :
    (∃ (s t : State) (f : Fault), s.fault = none ∧ beforeFetch s = .ok () t ∧ fetch t = .fault f ∧
      fetchInstr t = .fault f) ∧
    (∃ (s t u : State) (opcode : Byte), s.fault = none ∧ beforeFetch s = .ok () t ∧ fetch t = .ok opcode u ∧
      opcodeEntry opcode = none) ∧
    (∃ (s t : State) (i : Instr) (f : Fault), s.fault = none ∧ prepare s = .ok i t ∧ exec i t = .fault f) ∧
    ∃ (s t u : State) (i : Instr) (f : Fault), s.fault = none ∧ prepare s = .ok i t ∧ exec i t = .next u ∧
      ppuPart i u = .fault f :=
  ⟨⟨bare.setPc 0x8000, _, .resourceNotConnected .programRom, rfl, rfl, rfl, rfl⟩,
    ⟨start State.reset.cpu [(0x0000, 0x02)] [], _, _, 0x02, rfl, rfl, rfl, rfl⟩,
    ⟨{ bare with wram := [(0x0000, 0xAD), (0x0002, 0x80)] }, _, .ldaAbsolute 0x8000, .resourceNotConnected .programRom,
      rfl, rfl, rfl⟩,
    ⟨{ bare with wram := [(0x0000, 0xEA)], ppu := { bare.ppu with mask := 0x08 } }, _, _, .nop,
      .resourceNotConnected .characterMemory, rfl, rfl, rfl, rfl⟩⟩

theorem witness_OperandAndStoreFaults :
    (∃ s f, resolve (formOf (.jmpIndirectAbsolute 0x8000)) s = .fault f) ∧
    (∃ s t f, resolve (formOf (.staAbsolute 0x8000)) s = .ok (.address 0x8000) t ∧ ∀ v,
      memWrite 0x8000 v t = .fault f) ∧
    (∃ s t f, resolve (formOf (.incAbsolute 0x8000)) s = .ok (.address 0x8000) t ∧ memRead 0x8000 t = .fault f) ∧
    ∃ s t u m f, resolve (formOf (.incAbsolute 0x2007)) s = .ok (.address 0x2007) t ∧ memRead 0x2007 t = .ok m u ∧
      ∀ v, memWrite 0x2007 v u = .fault f :=
  ⟨⟨bare, .resourceNotConnected .programRom, rfl⟩,
    ⟨bare, _, .resourceNotConnected .programRom, rfl, fun _ => rfl⟩,
    ⟨bare, _, .resourceNotConnected .programRom, rfl, rfl⟩,
    ⟨paletteEnd, _, _, _, .resourceNotConnected .characterMemory, rfl, rfl, fun _ => rfl⟩⟩

theorem witness_BrkBuildsTheFrame :
    (∃ target, (0x0103 ≤ (stackAt 0x0103).cpu.sp.toNat ∧ (stackAt 0x0103).cpu.sp.toNat ≤ 0x01FF) ∧
      (stackAt 0x0103).flag .I = true ∧ target = (stackAt 0x0103).cpu.pc + 1) ∧
    (∃ (s : State) (target : Word) (rom : PrgRom), (0x0103 ≤ s.cpu.sp.toNat ∧ s.cpu.sp.toNat ≤ 0x01FF) ∧
      s.flag .I = false ∧
      s.config.prgRom = some rom ∧ target = romWord rom 0xFFFE) ∧
    ∃ s : State, (0x0103 ≤ s.cpu.sp.toNat ∧ s.cpu.sp.toNat ≤ 0x01FF) ∧ s.flag .I = false ∧ s.config.prgRom = none :=
  ⟨⟨_, by decide, rfl, rfl⟩, ⟨(stackAt 0x01FF).setP 0x30, _, _, by decide, rfl, rfl, rfl⟩,
    ⟨bare.setP 0x30, by decide, rfl, rfl⟩⟩

theorem witness_RtiRestoresTheFrame :
    (StackInPage (stackAt 0x01FC) ∧ (stackAt 0x01FC).cpu.sp.toNat ≤ 0x01FC) ∧
    StackInPage (stackAt 0x01FD) ∧ 0x01FD ≤ (stackAt 0x01FD).cpu.sp.toNat := by
  unfold StackInPage; decide

theorem witness_LaxAndSax : ReadWitness .LAX ∧ StoreWitness .SAX :=
  ⟨readWitness_of (.laxAbsolute 0x8000) rfl rfl, storeWitness_of (.saxAbsolute 0x8000) rfl rfl⟩

theorem witness_DcpAndIsb : ModifyWitness .DCP ∧ ModifyWitness .ISB :=
  ⟨modifyWitness_of (.dcpAbsolute 0x8000) rfl (by decide) rfl,
      modifyWitness_of (.isbAbsolute 0x8000) rfl (by decide) rfl⟩

theorem witness_SloSreRlaAndRra :
    ModifyWitness .SLO ∧ ModifyWitness .SRE ∧ ModifyWitness .RLA ∧ ModifyWitness .RRA :=
  ⟨modifyWitness_of (.sloAbsolute 0x8000) rfl (by decide) rfl,
      modifyWitness_of (.sreAbsolute 0x8000) rfl (by decide) rfl,
    modifyWitness_of (.rlaAbsolute 0x8000) rfl (by decide) rfl,
      modifyWitness_of (.rraAbsolute 0x8000) rfl (by decide) rfl⟩

theorem witness_InstructionFaultsHaveACause :
    exec (.ldaAbsolute 0xFFFF) bare = .fault (.resourceNotConnected .programRom) ∧
    exec (.ldaAbsolute 0x2007) bare = .fault (.resourceNotConnected .characterMemory) ∧
    exec .pha (stackAt 0x0100) = .fault (.stackPointerOverflow 0x00FF) ∧
    exec .rti (stackAt 0x01FD) = .fault (.stackPointerUnderflow 0x0200) ∧ State.reset.fault = none ∧
    memRead 0x8000 bare = .fault (.resourceNotConnected .programRom) ∧
    memWrite 0x2007 0x5A bare = .fault (.resourceNotConnected .characterMemory) ∧
    ppuBusRead 0x1FFF bare = .fault (.resourceNotConnected .characterMemory) ∧
    ppuBusWrite 0x0000 0x5A bare = .fault (.resourceNotConnected .characterMemory) :=
  ⟨rfl, rfl, rfl, rfl, rfl, rfl, rfl, rfl, rfl⟩

theorem witness_AttachedMachineNeverMissesAResource :
    Connected running ∧ running.fault = none ∧ (∃ t, step running = .next t) ∧
    ∃ s f, Connected s ∧ s.fault = none ∧ step s = .fault f :=
  ⟨⟨rfl, rfl⟩, rfl, running_next.imp fun _ h => h.1, start State.reset.cpu [(0x0000, 0x02)] [], .invalidOpcode 0x02,
    ⟨rfl, rfl⟩, rfl, fault_of_faults (by decide)⟩

theorem witness_CpuBusReadMap :
    (0x1FFF : Word).toNat < 0x2000 ∧ (0x2000 ≤ (0x2000 : Word).toNat ∧ (0x3FFF : Word).toNat < 0x4000) ∧
    (0x4000 ≤ (0x4000 : Word).toNat ∧ (0x7FFF : Word).toNat < 0x8000 ∧ (0x4015 : Word) ≠ 0x4016 ∧
      (0x4018 : Word) ≠ 0x4017) ∧ (0x8000 ≤ (0x8000 : Word).toNat ∧ bare.config.prgRom = none) ∧
    (0x8000 ≤ (0xFFFF : Word).toNat ∧ State.reset.config.prgRom = some ⟨.kib32, []⟩) ∧
    { Config.default with prgRom := some ⟨.kib16, []⟩ }.prgRom = some ⟨.kib16, []⟩ := by decide

theorem witness_CpuBusWriteMap :
    (0x1FFF : Word).toNat < 0x2000 ∧ (0x2000 ≤ (0x2000 : Word).toNat ∧ (0x3FFF : Word).toNat < 0x4000) ∧
    (0x4000 ≤ (0x4013 : Word).toNat ∧ (0x7FFF : Word).toNat < 0x8000 ∧ (0x4013 : Word) ≠ 0x4014 ∧
      (0x4015 : Word) ≠ 0x4016 ∧ (0x4018 : Word) ≠ 0x4017) ∧
    (0x8000 ≤ (0x8000 : Word).toNat ∧ State.reset.config.prgRom.isSome = true) ∧
    0x8000 ≤ (0xFFFF : Word).toNat ∧ bare.config.prgRom = none := by decide

theorem witness_OnlyListedReadsHaveASideEffect :
    (∃ v t, memRead 0x4015 State.reset = .ok v t ∧ readHasEffect 0x4015 = false) ∧
    (∃ v t, memRead 0x3FFA State.reset = .ok v t ∧ (0x3FFA : Word).toNat % 8 = 2) ∧
    (∃ v t, memRead 0x3FFF State.reset = .ok v t ∧ (0x3FFF : Word).toNat % 8 = 7) ∧
    (∃ v t, memRead 0x4016 State.reset = .ok v t) ∧ ∃ v t, memRead 0x4017 State.reset = .ok v t :=
  ⟨⟨_, _, rfl, rfl⟩, ⟨_, _, rfl, rfl⟩, ⟨_, _, rfl, rfl⟩, ⟨_, _, rfl⟩, ⟨_, _, rfl⟩⟩

theorem witness_PpuBusIsAFixedDecoding :
    State.reset.chr.isSome = true ∧ bare.chr = none ∧ (0x1FFF : Word).toNat % 0x4000 < 0x2000 ∧
    (0x3000 ≤ (0x3EFF : Word).toNat ∧ (0x3EFF : Word).toNat < 0x3F00) ∧
    0x3F00 ≤ (0x3FDF : Word).toNat ∧ (0x3FDF : Word).toNat < 0x3FE0 := by decide

theorem witness_PpuPortReads :
    [0x2000, 0x2002, 0x2004, 0x2007].all (fun a : Word => decide (0x2000 ≤ a.toNat ∧ a.toNat < 0x4000)) = true ∧
    [0x2002, 0x2004, 0x2007, 0x2000].map (fun a : Word => a.toNat % 8) = [2, 4, 7, 0] ∧
    (∃ v, ppuBusRead State.reset.ppu.videoRamAddress State.reset = .ok v State.reset) ∧
    bare.ppu.videoRamAddress.toNat % 0x4000 < 0x2000 ∧ bare.chr = none :=
  ⟨by decide, by decide, ⟨_, rfl⟩, by decide, rfl⟩

theorem witness_PpuPortWrites :
    (List.range 8).map (fun k => (0x3FF8 + BitVec.ofNat 16 k).toNat % 8) = [0, 1, 2, 3, 4, 5, 6, 7] ∧
    (0x2000 ≤ (0x3FF8 : Word).toNat ∧ (0x3FFF : Word).toNat < 0x4000) ∧
    (∃ t, ppuBusWrite State.reset.ppu.videoRamAddress 0x5A State.reset = .ok () t) ∧
    bare.ppu.videoRamAddress.toNat % 0x4000 < 0x2000 ∧ bare.chr = none :=
  ⟨by decide, by decide, ⟨_, rfl⟩, by decide, rfl⟩

theorem witness_WriteToggleIsShared :
    (∃ t, memWrite 0x2006 0x20 State.reset = .ok () t) ∧ ∃ v t, memRead 0x2002 State.reset = .ok v t :=
  ⟨⟨_, rfl⟩, ⟨_, _, rfl⟩⟩

theorem witness_PollingServicesAtMostOneRequest :
    (∃ (s : State) (rom : PrgRom), s.config.prgRom = some rom ∧ 0x0103 ≤ s.cpu.sp.toNat ∧ s.cpu.sp.toNat ≤ 0x01FF ∧
      s.int.nmi = true) ∧
    (∃ (s : State) (rom : PrgRom), s.config.prgRom = some rom ∧ 0x0103 ≤ s.cpu.sp.toNat ∧ s.cpu.sp.toNat ≤ 0x01FF ∧
      s.int.nmi = false ∧
      s.int.irq = true ∧ s.flag .I = false) ∧ NoInterrupt State.reset ∧
    (∃ s : State, ¬ NoInterrupt s ∧ StackInPage s ∧ s.cpu.sp.toNat ≤ 0x0102) ∧
    ∃ s : State, ¬ NoInterrupt s ∧ StackInPage s ∧ 0x0103 ≤ s.cpu.sp.toNat ∧ s.config.prgRom = none :=
  ⟨⟨{ stackAt 0x0103 with int := ⟨true, true⟩ }, _, rfl, by decide, by decide, rfl⟩,
    ⟨{ (stackAt 0x01FF).setP 0x30 with int := ⟨false, true⟩ }, _, rfl, by decide, by decide, rfl, rfl, rfl⟩,
    ⟨rfl, .inl rfl⟩,
    ⟨{ stackAt 0x0102 with int := ⟨true, false⟩ }, fun h => absurd h.1 (by decide), by unfold StackInPage; decide,
      by decide⟩,
    ⟨{ bare with int := ⟨true, false⟩ }, fun h => absurd h.1 (by decide), by unfold StackInPage; decide, by decide,
      rfl⟩⟩

theorem witness_EntryThenRtiResumes : ∃ t, 0x8000 ≤ nmiVector.toNat ∧ 0x0103 ≤ (stackAt 0x0103).cpu.sp.toNat ∧
    (stackAt 0x0103).cpu.sp.toNat ≤ 0x01FF ∧ takeInterrupt nmiVector (stackAt 0x0103) = .ok () t :=
  (ok_of_valueOf (v := ()) (by decide)).imp fun _ h => ⟨by decide, by decide, by decide, h⟩

theorem witness_CpuResetSetsTheCpuRegisters :
    (∃ rom, State.reset.config.prgRom = some rom) ∧ bare.config.prgRom = none := ⟨⟨_, rfl⟩, rfl⟩

theorem witness_IrqAndParametersComeFromTheHost : ∃ s t, step s = .next t ∧ t.int.irq = true :=
  ⟨{ running with schedule := [[.irqAssert]] }, next_of_endsWith (look := (·.int.irq)) (by decide)⟩

theorem witness_DmaDrainCopiesThePage :
    (∃ s : State, s.dma.pending = true ∧ s.dma.page.toNat < 8) ∧
    (∃ s : State, s.dma.pending = true ∧ 8 ≤ s.dma.page.toNat) ∧ State.reset.dma.pending = false :=
  ⟨⟨{ State.reset with dma := ⟨true, 0x07⟩ }, rfl, by decide⟩, ⟨{ State.reset with dma := ⟨true, 0x08⟩ }, rfl,
      by decide⟩,
    rfl⟩

theorem witness_KeypadShiftsOutTheLatchedByte :
    (0x01 : Byte).getLsbD 0 = true ∧ (0xFE : Byte).getLsbD 0 = false ∧
    (∃ (s : State) (b : Byte) (rest : List Byte), s.keypad1.inputs = b :: rest ∧ s.keypad1.cursor = 0) ∧
    ∃ (s : State) (b : Byte) (rest : List Byte), s.keypad2.inputs = b :: rest ∧ s.keypad2.cursor = 0 :=
  ⟨rfl, rfl, ⟨{ State.reset with keypad1 := { Keypad.powerOn with inputs := [0x85] } }, _, _, rfl, rfl⟩,
    ⟨{ State.reset with keypad2 := { Keypad.powerOn with inputs := [0x0F] } }, _, _, rfl, rfl⟩⟩

theorem witness_PpuAdvancesThreePerCycle :
    (CountersInRange (ppuAt 340 261 0x00 0x00 []) ∧ (ppuAt 340 261 0x00 0x00 []).chr.isSome = true) ∧
    (∃ t u, CountersInRange running ∧ prepare running = .ok (.ldaImmediate 0x05) t ∧ step running = .next u) ∧
    Config.default.cycleTable = [] :=
  ⟨⟨by unfold CountersInRange; decide, rfl⟩,
    running_next.elim fun u h => (ok_of_valueOf (by decide)).elim fun t ht =>
      ⟨t, u, by unfold CountersInRange; decide, ht, h.1⟩, rfl⟩

theorem witness_LineEvents :
    (ppuAt 339 261 0x00 0x00 []).ppu.cycle < 340 ∧
    ((ppuAt 340 260 0x00 0x00 []).ppu.cycle = 340 ∧ (ppuAt 340 260 0x00 0x00 []).ppu.line < 261 ∧
      (ppuAt 340 260 0x00 0x00 []).ppu.line ≠ 239) ∧
    ((ppuAt 340 239 0x80 0x00 []).ppu.cycle = 340 ∧ (ppuAt 340 239 0x80 0x00 []).ppu.line = 239) ∧
    ∃ t, (ppuAt 340 261 0x00 0x00 []).ppu.cycle = 340 ∧ (ppuAt 340 261 0x00 0x00 []).ppu.line = 261 ∧
      drawSprites (ppuAt 340 261 0x00 0x00 []) = .ok () t :=
  ⟨by decide, by decide, by decide, ppuAt 340 261 0x00 0x00 [], by decide⟩

theorem witness_StatusFlagsOfAPpuStep :
    (∃ t, CountersInRange (ppuAt 340 261 0x80 0x00 []) ∧ ppuStep (ppuAt 340 261 0x80 0x00 []) = .ok () t ∧
      framePosition (ppuAt 340 261 0x80 0x00 []) = 89341) ∧
    (∃ t, CountersInRange (ppuAt 340 239 0x80 0x00 []) ∧ ppuStep (ppuAt 340 239 0x80 0x00 []) = .ok () t ∧
      framePosition (ppuAt 340 239 0x80 0x00 []) = 341 * 240 - 1) ∧
    ∃ t, CountersInRange (ppuAt 1 32 0x00 0x18 [(0, 0x20)]) ∧ ppuStep (ppuAt 1 32 0x00 0x18 [(0, 0x20)]) = .ok () t :=
  ⟨(ok_of_valueOf (v := ()) (by decide)).imp fun _ h => ⟨by unfold CountersInRange; decide, h, rfl⟩,
    (ok_of_valueOf (v := ()) (by decide)).imp fun _ h => ⟨by unfold CountersInRange; decide, h, rfl⟩,
    (ok_of_valueOf (v := ()) (by decide)).imp fun _ h => ⟨by unfold CountersInRange; decide, h⟩⟩

theorem witness_BackgroundGroupPixels : 255 < 256 ∧ 239 < 240 ∧ drawing.chr.isSome = true := by decide

theorem witness_LowestNumberedSpriteWins :
    (drawing.chr.isSome = true ∧ drawing.ppu.mask.getLsbD 4 = true) ∧
    State.reset.chr.isSome = true ∧ State.reset.ppu.mask.getLsbD 4 = false := by decide

theorem witness_ImageFeedsNothingBack : ∃ t, SameButImage running t ∧ t ≠ running :=
  ⟨setPixel 3 5 0x21 running, rfl, by decide⟩

theorem witness_StepKeepsRegisterInvariant : RegisterInv running ∧ ∃ t, step running = .next t :=
  ⟨⟨by unfold StackInPage; decide, rfl, by unfold CountersInRange; decide, rfl, by decide, by decide⟩,
    running_next.imp fun _ h => h.1⟩

theorem witness_StepKeepsMemoryInvariant : MemoryInv running ∧ ∃ t, step running = .next t :=
  ⟨⟨by decide, by decide, by decide, by decide, by decide, by intro m h; cases h; decide, by decide, by decide⟩,
    running_next.imp fun _ h => h.1⟩

end Sys2Proof.Tests
end

/-! PROOFS. Writes of the status byte, bit by bit (00 R7, 10 R25). -/

namespace Sys2Proof.Machine

/-- Different flags have different bits. -/
@[simp] theorem Flag.bit_inj (f g : Flag) : f.bit = g.bit ↔ f = g := by
  cases f <;> cases g <;> simp [Flag.bit]

/-- Every bit of `P` holds a flag. -/
theorem Flag.exists_bit_eq {k : Nat} (hk : k < 8) : ∃ f : Flag, f.bit = k :=
  match k, hk with
  | 0, _ => ⟨.C, rfl⟩
  | 1, _ => ⟨.Z, rfl⟩
  | 2, _ => ⟨.I, rfl⟩
  | 3, _ => ⟨.D, rfl⟩
  | 4, _ => ⟨.B, rfl⟩
  | 5, _ => ⟨.R, rfl⟩
  | 6, _ => ⟨.V, rfl⟩
  | 7, _ => ⟨.N, rfl⟩

/-- A bit of `P` after a flag write: bit `k` is some flag's, so this is the law of flag reads. -/
theorem getLsbD_withFlag (f : Flag) (b : Bool) (p : Byte) {k : Nat} (hk : k < 8) :
    (withFlag f b p).getLsbD k = if k = f.bit then b else p.getLsbD k := by
  obtain ⟨g, rfl⟩ := Flag.exists_bit_eq hk
  simp only [Flag.bit_inj]
  exact flagOf_withFlag f g b p

/-- A bit of `P` after `SetNZ`, as the two flag writes it consists of leave it. -/
theorem getLsbD_setNZ (s : State) (v : Byte) {k : Nat} (hk : k < 8) :
    (s.setNZ v).cpu.p.getLsbD k =
      if k = Flag.bit .Z then decide (v = 0) else if k = Flag.bit .N then v.getLsbD 7 else s.cpu.p.getLsbD k := by
  rw [← getLsbD_withFlag .N _ _ hk, ← getLsbD_withFlag .Z _ _ hk]
  rfl

/-- Settles O9: both writes are a write of `P` alone, and the flag-read law gives each bit of it. -/
theorem statusWritesTouchTheirFlagOnly : Obligations.StatusWritesTouchTheirFlagOnly := by
  refine ⟨fun s v => ⟨setNZ_eq s v, fun k hk => ?_⟩,
    fun s f b => ⟨setFlag_eq s f b, fun k hk => getLsbD_withFlag f b _ hk⟩, rfl⟩
  rw [getLsbD_setNZ s v hk]
  by_cases h7 : k = 7
  · simp only [h7, Flag.bit, reduceIte, Nat.reduceEqDiff]
  · simp only [h7, Flag.bit, if_false]

end Sys2Proof.Machine

/-! PROOFS. Properties that every part of a step keeps, and so the step (51 R440). -/

namespace Sys2Proof.Machine

/-- Wherever `P` holds before an operation that ends well, it holds after it. -/
def Keeps {α : Type} (P : State → Prop) (op : State → Result α) : Prop := ∀ s, P s → (op s).Ends P

section

variable {P : State → Prop} {α β : Type}

theorem keeps_ok {v : State → α} {f : State → State} (h : ∀ s, P s → P (f s)) : Keeps P fun s => .ok (v s) (f s) :=
  fun s p => ends_ok (h s p)

theorem keeps_pure {v : State → α} : Keeps P fun s => .ok (v s) s := keeps_ok fun _ p => p

theorem keeps_bind {op : State → Result α} {k : α → State → Result β} (h : Keeps P op) (hk : ∀ v, Keeps P (k v)) :
    Keeps P fun s => (op s).bind k := fun s p => ends_bind (h s p) hk

/-- An operation after a change of the state that keeps the property. -/
theorem keeps_after {op : State → Result α} {f : State → State} (h : Keeps P op) (hf : ∀ s, P s → P (f s)) :
    Keeps P fun s => op (f s) := fun s p => h (f s) (hf s p)

/-- An operation that first reads the state for a parameter. -/
theorem keeps_param {p : State → β} {op : β → State → Result α} (h : ∀ b, Keeps P (op b)) :
    Keeps P fun s => op (p s) s := fun s => h (p s) s

/-- Each branch of a test may use what the test has found. -/
theorem keeps_ite {c : State → Prop} [∀ s, Decidable (c s)] {f g : State → Result α}
    (hf : ∀ s, c s → P s → (f s).Ends P) (hg : ∀ s, ¬ c s → P s → (g s).Ends P) :
    Keeps P fun s => if c s then f s else g s := fun s p => by
  by_cases h : c s
  · simpa [h] using hf s h p
  · simpa [h] using hg s h p

theorem keeps_forEach {f : Nat → State → Result Unit} :
    ∀ {ks : List Nat}, (∀ k ∈ ks, Keeps P (f k)) → Keeps P (forEach f ks)
  | [], _ => keeps_pure
  | k :: _, h => keeps_bind (h k List.mem_cons_self) fun _ =>
      keeps_forEach fun j hj => h j (List.mem_cons_of_mem k hj)

/-- A PPU-bus read keeps every property: it changes nothing. -/
theorem keeps_ppuBusRead (a : Word) : Keeps P (ppuBusRead a) := fun s p v t e => by
  rw [ppuBusRead_state e]; exact p

/-- Polling keeps what interrupt entry and a cleared request keep (60 R483). -/
theorem keeps_handleInterrupts (take : ∀ v, Keeps P (takeInterrupt v))
    (lower : ∀ s, P s → P { s with int := { s.int with nmi := false } } ∧
      P { s with int := { s.int with irq := false } }) :
    Keeps P handleInterrupts := fun s p v t e => by
  rcases handleInterrupts_cases e with ⟨_, rfl⟩ | ⟨_, h⟩ | ⟨_, _, _, h⟩
  · exact p
  · exact take _ _ (lower s p).1 _ _ h
  · exact take _ _ (lower s p).2 _ _ h

/-- The host's part keeps what `CPU.reset()`, a raised IRQ and a shorter schedule keep (51 R443). -/
theorem keeps_hostPart (reset : Keeps P cpuReset)
    (raise : ∀ s, P s → P { s with int := { s.int with irq := true } })
    (schedule : ∀ s hs, P s → P { s with schedule := hs }) : Keeps P hostPart := by
  have action : ∀ h, Keeps P (hostAction h) := fun h => by
    cases h with
    | irqAssert => exact keeps_ok raise
    | cpuReset => exact reset
  have actions : ∀ hs, Keeps P (hostActions hs) := fun hs => by
    induction hs with
    | nil => exact keeps_pure
    | cons h hs ih => exact keeps_bind (action h) fun _ => ih
  intro s p
  unfold hostPart
  split
  · exact ends_ok p
  · exact actions _ _ (schedule s _ p)

/-- What the parts of a step keep, the host's part and the interrupt latches aside. -/
structure KeptByParts (P : State → Prop) : Prop where
  reset : Keeps P cpuReset
  take  : ∀ v, Keeps P (takeInterrupt v)
  fetch : Keeps P fetchInstr
  instr : ∀ name form, Keeps P (opOf name form)
  dma   : Keeps P transferIfRequested
  ppu   : Keeps P ppuStep

theorem keeps_ppuSteps (h : Keeps P ppuStep) : ∀ n, Keeps P (ppuSteps n)
  | 0 => keeps_pure
  | n + 1 => keeps_bind h fun _ => keeps_ppuSteps h n

/-- A property that holds after the host's part, and that every later part keeps, holds after the step. -/
theorem KeptByParts.after_step (k : KeptByParts P)
    (lower : ∀ s, P s → P { s with int := { s.int with nmi := false } } ∧
      P { s with int := { s.int with irq := false } })
    {s u : State} (host : (hostPart s).Ends P) (h : step s = .next u) : P u := by
  obtain ⟨_, s1, i, s2, s3, h1, h2, h3, h4⟩ := step_eq_next.mp h
  obtain ⟨t1, t2, hh, hd, hi⟩ := beforeFetch_eq_ok.mp h1
  have p1 : P s1 := keeps_handleInterrupts k.take lower t2 (k.dma t1 (host _ _ hh) _ _ hd) _ _ hi
  have p3 : P s3 := by
    rw [exec_eq] at h3
    exact k.instr _ _ s2 (k.fetch s1 p1 _ _ h2) _ _ (outcome_eq_next.mp h3)
  exact keeps_ppuSteps k.ppu _ s3 p3 _ _ h4

/-- A property that every part keeps, and that says nothing of the latches and the schedule, is kept by the step. -/
theorem KeptByParts.step (k : KeptByParts P) (int : ∀ s i, P s → P { s with int := i })
    (schedule : ∀ s hs, P s → P { s with schedule := hs }) {s u : State} (h : step s = .next u) (p : P s) : P u :=
  k.after_step (fun s p => ⟨int s _ p, int s _ p⟩) (keeps_hostPart k.reset (fun s => int s _) schedule s p) h

/-- What register writes, bus reads and bus writes keep. -/
structure KeptByMoves (P : State → Prop) : Prop where
  cpu   : ∀ s c, P s → P { s with cpu := c }
  read  : ∀ a s v t, memRead a s = .ok v t → P s → P t
  write : ∀ a v s t, memWrite a v s = .ok () t → P s → P t

theorem KeptByMoves.keeps (k : KeptByMoves P) {op : State → Result α} (h : Moving op) : Keeps P op :=
  fun s p v t e => (h s v t e).keeps k.cpu k.read k.write p

/-- Where the moves keep a property, only the DMA drain and the PPU are left to check. -/
theorem KeptByMoves.keptByParts (k : KeptByMoves P) (dma : Keeps P transferIfRequested) (ppu : Keeps P ppuStep) :
    KeptByParts P :=
  ⟨k.keeps moving_cpuReset, fun v => k.keeps (moving_takeInterrupt v), k.keeps moving_fetchInstr,
    fun name form => k.keeps (moving_opOf name form), dma, ppu⟩

end

/-- The DMA drain changes sprite RAM and its own latch only (51 R431). -/
theorem transferIfRequested_frame {s t : State} (h : transferIfRequested s = .ok () t) :
    t = { s with ppu := { s.ppu with spriteRam := t.ppu.spriteRam }, dma := t.dma } := by
  unfold transferIfRequested at h
  split at h
  · split at h
    · cases h
    · have frame := copyToSpriteRam_frame (s.dma.page.toNat * 0x100) 256 s
      generalize copyToSpriteRam (s.dma.page.toNat * 0x100) 256 s = u at frame h
      cases h
      rw [frame]
  · cases h; rfl

end Sys2Proof.Machine

/-! PROOFS. What one access of the CPU bus can do, by the rows of 20 R81 and R82. -/

namespace Sys2Proof.Machine

/-- The window of the PPU ports and their mirrors (20 R84). -/
def InPortWindow (a : Word) : Prop := 0x2000 ≤ a.toNat ∧ a.toNat < 0x4000

/-- A read is a port read in the window; elsewhere it moves at most one keypad's cursor. -/
theorem memRead_cases {a : Word} {v : Byte} {s t : State} (h : memRead a s = .ok v t) :
    (InPortWindow a ∧ ppuPortRead (a.toNat % 8) s = .ok v t) ∨
    (¬ InPortWindow a ∧ (t = s ∨ t = { s with keypad1 := keypadAdvance s.keypad1 } ∨
      t = { s with keypad2 := keypadAdvance s.keypad2 })) := by
  unfold InPortWindow
  unfold memRead busRead at h
  split at h
  · cases h; exact .inr ⟨by omega, .inl rfl⟩
  split at h
  · exact .inl ⟨by omega, h⟩
  refine .inr ⟨by omega, ?_⟩
  split at h
  · cases h; exact .inl rfl
  split at h
  · cases h; exact .inr (.inl rfl)
  split at h
  · cases h; exact .inr (.inr rfl)
  repeat' split at h
  all_goals cases h
  all_goals exact .inl rfl

/-- A write is a port write in the window; elsewhere it reaches working RAM, the DMA latch, one keypad, or nothing. -/
theorem memWrite_cases {a : Word} {v : Byte} {s t : State} (h : memWrite a v s = .ok () t) :
    (InPortWindow a ∧ ppuPortWrite (a.toNat % 8) v s = .ok () t) ∨
    (¬ InPortWindow a ∧ (t = { s with wram := t.wram, dma := t.dma } ∨
      t = { s with keypad1 := keypadWrite 1 v s.keypad1 } ∨ t = { s with keypad2 := keypadWrite 2 v s.keypad2 })) := by
  unfold InPortWindow
  unfold memWrite busWrite at h
  split at h
  · cases h; exact .inr ⟨by omega, .inl rfl⟩
  split at h
  · exact .inl ⟨by omega, h⟩
  refine .inr ⟨by omega, ?_⟩
  split at h
  · cases h; exact .inl rfl
  split at h
  · cases h; exact .inr (.inl rfl)
  split at h
  · cases h; exact .inr (.inr rfl)
  repeat' split at h
  all_goals cases h
  all_goals exact .inl rfl

/-- A port read stays inside the PPU, and only port 2 moves the write toggle (50 R374). -/
theorem ppuPortRead_toggle {p : Nat} {v : Byte} {s t : State} (h : ppuPortRead p s = .ok v t) :
    t = { s with ppu := t.ppu } ∧ t.ppu.writeToggle = if p = 2 then false else s.ppu.writeToggle := by
  unfold ppuPortRead at h
  split at h
  · cases h; exact ⟨rfl, rfl⟩
  · cases h; exact ⟨rfl, rfl⟩
  · obtain ⟨b, u, h1, h2⟩ := bind_eq_ok.mp h
    obtain rfl := ppuBusRead_state h1
    split at h2 <;> cases h2 <;> exact ⟨rfl, rfl⟩
  case h_4 hp _ _ => cases h; exact ⟨rfl, (if_neg hp).symm⟩

/-- A port write moves the write toggle at ports 5 and 6 only (50 R379, R380). -/
theorem ppuPortWrite_toggle {p : Nat} {v : Byte} {s t : State} (h : ppuPortWrite p v s = .ok () t) :
    t.ppu.writeToggle = if p = 5 ∨ p = 6 then !s.ppu.writeToggle else s.ppu.writeToggle := by
  unfold ppuPortWrite at h
  split at h
  case h_5 => cases h; cases hw : s.ppu.writeToggle <;> simp [writeScroll, hw]
  case h_6 => cases h; cases hw : s.ppu.writeToggle <;> simp [writeVramAddress, hw]
  case h_7 =>
    obtain ⟨⟨⟩, u, h1, h2⟩ := bind_eq_ok.mp h
    cases h2
    show u.ppu.writeToggle = s.ppu.writeToggle
    rw [(ppuBusWrite_state h1).1]
  case h_8 h5 h6 _ => cases h; exact (if_neg fun hp => hp.elim h5 h6).symm
  all_goals cases h; rfl

/-- Settles O45: in the window by the port, elsewhere the PPU is untouched. -/
theorem writeToggleIsShared : Obligations.WriteToggleIsShared := by
  refine ⟨fun a v s t h => ?_, fun a v s t h => ?_, fun _ => rfl⟩
  · rcases memWrite_cases h with ⟨⟨lo, hi⟩, hp⟩ | ⟨hw, e⟩
    · simpa [lo, hi] using ppuPortWrite_toggle hp
    · rw [if_neg fun ⟨lo, hi, _⟩ => hw ⟨lo, hi⟩]
      rcases e with e | e | e <;> rw [e]
  · rcases memRead_cases h with ⟨⟨lo, hi⟩, hp⟩ | ⟨hw, e⟩
    · simpa [lo, hi] using (ppuPortRead_toggle hp).2
    · rw [if_neg fun ⟨lo, hi, _⟩ => hw ⟨lo, hi⟩]
      rcases e with e | e | e <;> rw [e]

end Sys2Proof.Machine

/-! PROOFS. The mnemonics by the shape of their operation (40 R167, R181; 43 R253). -/

namespace Sys2Proof.Machine

/-- An effect on the CPU registers that leaves `SP` and the reserved flag alone. -/
structure RegisterEffect (f : State → State) : Prop where
  cpuOnly  : CpuOnly f
  sp       : ∀ s, (f s).cpu.sp = s.cpu.sp
  reserved : ∀ s, (f s).flag .R = s.flag .R

/-- The shapes of an operation. -/
inductive OpKind where
  /-- Reads its operand, then changes registers. -/
  | read
  /-- Stores a register byte at its operand. -/
  | store
  /-- Reads, modifies and writes its operand. -/
  | modify
  /-- JMP. -/
  | jump
  /-- The eight conditional branches. -/
  | branch
  /-- Changes registers, with no operand. -/
  | registers
  /-- Moves `SP`. -/
  | stack
deriving DecidableEq

/-- The shape of a mnemonic's operation. -/
def kindOf : Mnemonic → OpKind
  | .LDA | .LDX | .LDY | .ADC | .SBC | .CMP | .CPX | .CPY | .AND | .ORA | .EOR | .BIT | .LAX => .read
  | .STA | .STX | .STY | .SAX => .store
  | .INC | .DEC | .ASL | .LSR | .ROL | .ROR | .DCP | .ISB | .SLO | .SRE | .RLA | .RRA => .modify
  | .JMP => .jump
  | .BCC | .BCS | .BEQ | .BNE | .BMI | .BPL | .BVC | .BVS => .branch
  | .TAX | .TAY | .TXA | .TYA | .TSX | .INX | .INY | .DEX | .DEY => .registers
  | .CLC | .SEC | .CLI | .SEI | .CLV | .CLD | .SED | .NOP => .registers
  | .TXS | .JSR | .RTS | .PHA | .PHP | .PLA | .PLP | .BRK | .RTI => .stack

theorem opOf_read {name : Mnemonic} (h : kindOf name = .read) : ∃ effect : Byte → State → State,
    (∀ m, RegisterEffect (effect m)) ∧ ∀ form, opOf name form = readInstr form effect := by
  cases name
  all_goals first
    | (cases h; done)
    | (refine ⟨_, ?_, fun _ => rfl⟩
       exact fun _ => ⟨fun _ => rfl, fun _ => rfl, fun _ => by
         simp [addWithCarry, subtractWithBorrow, compareWith, bitTest]⟩)

theorem opOf_store {name : Mnemonic} (h : kindOf name = .store) : ∃ source : State → Byte,
    ∀ form, opOf name form = storeInstr form source := by
  cases name
  all_goals first | (cases h; done) | exact ⟨_, fun _ => rfl⟩

theorem registerEffect_id : RegisterEffect fun s => s := ⟨fun _ => rfl, fun _ => rfl, fun _ => rfl⟩

theorem registerEffect_setNZ (v : Byte) : RegisterEffect fun s => s.setNZ v :=
  ⟨fun _ => rfl, fun _ => rfl, fun _ => by simp⟩

/-- A byte of A and the result goes to A, and N and Z follow it. -/
theorem registerEffect_combineA (f : Byte → Byte) : RegisterEffect fun s => (s.setA (f s.cpu.a)).setNZ (f s.cpu.a) :=
  ⟨fun _ => rfl, fun _ => rfl, fun _ => by simp⟩

/-- A mnemonic that is a read-modify-write on every form, with register effects before and after its store. -/
def IsModify (name : Mnemonic) : Prop :=
  ∃ (result : Byte → State → Byte) (early late : Byte → State → State), (∀ m, RegisterEffect (early m)) ∧
    (∀ m, RegisterEffect (late m)) ∧ ∀ form, opOf name form = modifyInstr form result early late

/-- A shift is a read-modify-write that sets C before its store (43 R249). -/
theorem shiftInstr_modifies (shift : Byte → Bool → Shifted) {late : Byte → State → State}
    (hl : ∀ m, RegisterEffect (late m)) {name : Mnemonic}
    (e : ∀ form, opOf name form = shiftInstr form shift late) : IsModify name :=
  ⟨fun m s => (shift m (s.flag .C)).result, fun m s => s.setFlag .C (shift m (s.flag .C)).carry, late,
    fun _ => ⟨fun _ => rfl, fun _ => rfl, fun _ => by simp⟩, hl, e⟩

theorem opOf_modify {name : Mnemonic} (h : kindOf name = .modify) : IsModify name := by
  cases name
  case INC => exact ⟨fun m _ => m + 1, _, _, fun _ => registerEffect_id, registerEffect_setNZ, fun _ => rfl⟩
  case DEC => exact ⟨fun m _ => m - 1, _, _, fun _ => registerEffect_id, registerEffect_setNZ, fun _ => rfl⟩
  case DCP =>
    exact ⟨fun m _ => m - 1, _, fun r s => compareWith s.cpu.a r s, fun _ => registerEffect_id,
      fun _ => ⟨fun _ => rfl, fun _ => rfl, fun _ => by simp [compareWith]⟩, fun _ => rfl⟩
  case ISB =>
    exact ⟨fun m _ => m + 1, _, subtractWithBorrow, fun _ => registerEffect_id,
      fun _ => ⟨fun _ => rfl, fun _ => rfl, fun _ => by simp [subtractWithBorrow]⟩, fun _ => rfl⟩
  case ASL => exact shiftInstr_modifies shiftLeft registerEffect_setNZ fun _ => rfl
  case LSR => exact shiftInstr_modifies shiftRight registerEffect_setNZ fun _ => rfl
  case ROL => exact shiftInstr_modifies rotateLeft registerEffect_setNZ fun _ => rfl
  case ROR => exact shiftInstr_modifies rotateRight registerEffect_setNZ fun _ => rfl
  case SLO => exact shiftInstr_modifies shiftLeft (fun r => registerEffect_combineA (· ||| r)) fun _ => rfl
  case SRE => exact shiftInstr_modifies shiftRight (fun r => registerEffect_combineA (· ^^^ r)) fun _ => rfl
  case RLA => exact shiftInstr_modifies rotateLeft (fun r => registerEffect_combineA (· &&& r)) fun _ => rfl
  case RRA =>
    exact shiftInstr_modifies rotateRight (late := addWithCarry)
      (fun _ => ⟨fun _ => rfl, fun _ => rfl, fun _ => by simp [addWithCarry]⟩) fun _ => rfl
  all_goals cases h

theorem opOf_branch {name : Mnemonic} (h : kindOf name = .branch) (form : Form) :
    (∃ disp taken, opOf name form = branchInstr disp taken) ∨ opOf name form = fun s => .ok () s := by
  cases name
  all_goals first | (cases h; done) | (cases form <;> first | exact .inl ⟨_, _, rfl⟩ | exact .inr rfl)

theorem opOf_registers {name : Mnemonic} (h : kindOf name = .registers) : ∃ f : State → State,
    RegisterEffect f ∧ ∀ form, opOf name form = fun s => .ok () (f s) := by
  cases name
  all_goals first
    | (cases h; done)
    | (refine ⟨_, ?_, fun _ => rfl⟩
       exact ⟨fun _ => rfl, fun _ => rfl, fun _ => by simp⟩)

end Sys2Proof.Machine

/-! PROOFS. `SP` stays in page 1 and the reserved flag set (10 R24, R31): a claim about the CPU registers alone. -/

namespace Sys2Proof.Machine

/-- The CPU registers of a running machine. -/
def CpuInv (s : State) : Prop := StackInPage s ∧ s.flag .R = true

theorem CpuInv.congr {s t : State} (p : CpuInv s) (e : t.cpu = s.cpu) : CpuInv t := by
  unfold CpuInv StackInPage State.flag at *
  rw [e]; exact p

theorem RegisterEffect.cpuInv {f : State → State} (h : RegisterEffect f) {s : State} (p : CpuInv s) :
    CpuInv (f s) := by
  unfold CpuInv StackInPage
  rw [h.sp, h.reserved]; exact p

theorem cpuInv_setFlag {f : Flag} (hf : f ≠ .R) {b : Bool} {s : State} (p : CpuInv s) : CpuInv (s.setFlag f b) :=
  ⟨p.1, by rw [flag_setFlag, if_neg hf.symm]; exact p.2⟩

/-- `P` as PLP and RTI take it from the stack (45 R298, R308). -/
theorem cpuInv_setP_reserved {s : State} (h : StackInPage s) (v : Byte) : CpuInv (s.setP (v ||| 0x20)) :=
  ⟨h, (flagOf_or_reserved v .R).trans (if_pos rfl)⟩

/-- An operation of bus reads keeps the CPU registers. -/
theorem cpuInv_of_reads {α : Type} {op : State → Result α} (h : ∀ {s v t}, op s = .ok v t → ReadEffects s t) :
    Keeps CpuInv op := fun _ p _ _ e => p.congr (h e).fields.1

theorem cpuInv_memWrite (a : Word) (v : Byte) : Keeps CpuInv (memWrite a v) := fun _ p _ _ e =>
  p.congr (memWrite_effects e).1.fields.1

/-- A push that ends well had room for the decrement (10 R34). -/
theorem cpuInv_push (v : Byte) : Keeps CpuInv (push v) := fun s p _ t e => by
  obtain ⟨u, hw, rfl, room⟩ := push_effects e
  have hu : CpuInv u := cpuInv_memWrite _ _ s p _ _ hw
  obtain ⟨⟨lo, hi⟩, -⟩ := p
  refine ⟨?_, hu.2⟩
  show 0x0100 ≤ (s.cpu.sp - 1).toNat ∧ (s.cpu.sp - 1).toNat ≤ 0x01FF
  bv_omega

/-- A pop that ends well had room for the increment (10 R35). -/
theorem cpuInv_pop : Keeps CpuInv pop := fun s p _ t e => by
  obtain ⟨er, room⟩ := pop_effects e
  obtain ⟨⟨lo, hi⟩, hr⟩ := p
  refine CpuInv.congr (s := s.setSp (s.cpu.sp + 1)) ⟨?_, hr⟩ er.fields.1
  show 0x0100 ≤ (s.cpu.sp + 1).toNat ∧ (s.cpu.sp + 1).toNat ≤ 0x01FF
  bv_omega

theorem cpuInv_pushWord (w : Word) : Keeps CpuInv (pushWord w) := keeps_bind (cpuInv_push _) fun _ => cpuInv_push _

theorem cpuInv_popWord : Keeps CpuInv popWord :=
  keeps_bind cpuInv_pop fun _ => keeps_bind cpuInv_pop fun _ => keeps_pure

theorem cpuInv_pushFrame : Keeps CpuInv pushFrame :=
  keeps_bind (keeps_param (p := fun s => s.cpu.pc) cpuInv_pushWord) fun _ =>
    keeps_param (p := fun s => s.cpu.p) cpuInv_push

theorem cpuInv_takeInterrupt (vector : Word) : Keeps CpuInv (takeInterrupt vector) :=
  keeps_bind (keeps_after cpuInv_pushFrame fun _ => cpuInv_setFlag (by decide)) fun _ =>
    keeps_bind (keeps_after (cpuInv_of_reads readWord_effects) fun _ => cpuInv_setFlag (by decide)) fun _ =>
      keeps_ok fun _ p => p

theorem cpuInv_returnFromInterrupt : Keeps CpuInv returnFromInterrupt :=
  keeps_bind cpuInv_pop fun v =>
    keeps_bind (keeps_after cpuInv_popWord fun _ p => cpuInv_setP_reserved p.1 v) fun _ => keeps_ok fun _ p => p

/-- `CPU.reset()` gives good registers whatever they were (70 R531). -/
theorem cpuInv_cpuReset : Keeps CpuInv cpuReset :=
  keeps_after (op := fun t => (readWord resetVector t).bind fun target s => .ok () (s.setPc target))
    (keeps_bind (cpuInv_of_reads readWord_effects) fun _ => keeps_ok fun _ p => p)
    fun _ _ => ⟨show 0x0100 ≤ (0x01FD : Word).toNat ∧ (0x01FD : Word).toNat ≤ 0x01FF by decide,
      show flagOf .R 0x34 = true by decide⟩

theorem cpuInv_fetch : Keeps CpuInv fetch :=
  keeps_bind (keeps_param (p := fun s => s.cpu.pc) fun _ => cpuInv_of_reads memRead_effects) fun _ =>
    keeps_ok fun _ p => p

theorem cpuInv_fetchWord : Keeps CpuInv fetchWord :=
  keeps_bind cpuInv_fetch fun _ => keeps_bind cpuInv_fetch fun _ => keeps_pure

theorem cpuInv_fetchInstr : Keeps CpuInv fetchInstr :=
  keeps_bind cpuInv_fetch fun opcode => by
    cases opcodeEntry opcode with
    | none => exact fun _ _ => ends_fault
    | some t =>
      cases t with
      | none => exact keeps_pure
      | byte => exact keeps_bind cpuInv_fetch fun _ => keeps_pure
      | word => exact keeps_bind cpuInv_fetchWord fun _ => keeps_pure

theorem cpuInv_storeBack (op : Operand) (v : Byte) : Keeps CpuInv (storeBack op v) := by
  cases op with
  | none => exact keeps_ok fun _ p => p
  | value => exact keeps_pure
  | address a => exact cpuInv_memWrite a v

theorem cpuInv_readInstr (form : Form) {effect : Byte → State → State} (h : ∀ m, RegisterEffect (effect m)) :
    Keeps CpuInv (readInstr form effect) :=
  keeps_bind (cpuInv_of_reads operandByte_effects) fun m => keeps_ok fun _ => (h m).cpuInv

theorem cpuInv_storeInstr (form : Form) (source : State → Byte) : Keeps CpuInv (storeInstr form source) :=
  keeps_bind (cpuInv_of_reads resolve_effects) fun op => keeps_param (p := source) (cpuInv_storeBack op)

theorem cpuInv_modifyInstr (form : Form) {result : Byte → State → Byte} {early late : Byte → State → State}
    (he : ∀ m, RegisterEffect (early m)) (hl : ∀ m, RegisterEffect (late m)) :
    Keeps CpuInv (modifyInstr form result early late) :=
  keeps_bind (cpuInv_of_reads resolve_effects) fun op => keeps_bind (cpuInv_of_reads load_effects) fun m _ p =>
    ends_bind (cpuInv_storeBack op _ _ ((he m).cpuInv p)) fun _ _ q => ends_ok ((hl _).cpuInv q)

theorem cpuInv_jumpInstr (form : Form) : Keeps CpuInv (jumpInstr form) :=
  keeps_bind (cpuInv_of_reads resolve_effects) fun op => by
    cases op with
    | address => exact keeps_ok fun _ p => p
    | _ => exact keeps_pure

theorem cpuInv_branchInstr (disp : Int) (taken : State → Bool) : Keeps CpuInv (branchInstr disp taken) :=
  keeps_ite (fun _ _ => cpuInv_jumpInstr _ _) fun _ _ => ends_ok

/-- TXS puts X into page 1 (41 R202). -/
theorem cpuInv_txs : Keeps CpuInv opTxs := keeps_ok fun s p => by
  refine ⟨?_, p.2⟩
  have hx : (0x0100 ||| s.cpu.x.setWidth 16 : Word).toNat = 0x0100 + s.cpu.x.toNat := by
    have := s.cpu.x.isLt
    rw [BitVec.toNat_or, BitVec.toNat_setWidth, Nat.mod_eq_of_lt (by omega)]
    exact (Nat.two_pow_add_eq_or_of_lt (i := 8) this 1).symm
  have := s.cpu.x.isLt
  show 0x0100 ≤ (0x0100 ||| s.cpu.x.setWidth 16 : Word).toNat ∧
    (0x0100 ||| s.cpu.x.setWidth 16 : Word).toNat ≤ 0x01FF
  omega

theorem cpuInv_brk : Keeps CpuInv opBrk := fun s p =>
  ends_bind (cpuInv_pushFrame _ (cpuInv_setFlag (by decide) (s := s.setPc (s.cpu.pc + 1)) p)) fun _ t q => by
    split
    · exact ends_ok (cpuInv_setFlag (by decide) q)
    · exact ends_bind (cpuInv_of_reads readWord_effects t q) fun target u r =>
        ends_ok (cpuInv_setFlag (by decide) (s := u.setPc target) r)

theorem cpuInv_stackOp {name : Mnemonic} (h : kindOf name = .stack) (form : Form) : Keeps CpuInv (opOf name form) := by
  cases name
  case TXS => exact cpuInv_txs
  case JSR =>
    cases form
    case absolute a =>
      exact keeps_bind (keeps_param (p := fun s => s.cpu.pc - 1) cpuInv_pushWord) fun _ => keeps_ok fun _ p => p
    all_goals exact keeps_pure
  case RTS => exact keeps_bind cpuInv_popWord fun _ => keeps_ok fun _ p => p
  case PHA => exact keeps_param (p := fun s => s.cpu.a) cpuInv_push
  case PHP =>
    exact keeps_after (f := fun s => s.setFlag .B true) (op := fun t => push t.cpu.p t)
      (keeps_param (p := fun s => s.cpu.p) cpuInv_push) fun _ => cpuInv_setFlag (by decide)
  case PLA => exact keeps_bind cpuInv_pop fun _ => keeps_ok fun _ p => ⟨p.1, by simpa using p.2⟩
  case PLP => exact keeps_bind cpuInv_pop fun v => keeps_ok fun _ p => cpuInv_setP_reserved p.1 v
  case BRK => exact cpuInv_brk
  case RTI => exact cpuInv_returnFromInterrupt
  all_goals cases h

/-- Every operation keeps `SP` in page 1 and the reserved flag set. -/
theorem cpuInv_opOf (name : Mnemonic) (form : Form) : Keeps CpuInv (opOf name form) := by
  cases h : kindOf name with
  | read => obtain ⟨effect, he, e⟩ := opOf_read h; rw [e]; exact cpuInv_readInstr form he
  | store => obtain ⟨source, e⟩ := opOf_store h; rw [e]; exact cpuInv_storeInstr form source
  | modify => obtain ⟨_, _, _, he, hl, e⟩ := opOf_modify h; rw [e]; exact cpuInv_modifyInstr form he hl
  | jump => cases name <;> first | exact cpuInv_jumpInstr form | cases h
  | branch =>
    obtain ⟨disp, taken, e⟩ | e := opOf_branch h form <;> rw [e]
    · exact cpuInv_branchInstr disp taken
    · exact keeps_pure
  | registers => obtain ⟨f, hf, e⟩ := opOf_registers h; rw [e]; exact keeps_ok fun _ => hf.cpuInv
  | stack => exact cpuInv_stackOp h form

theorem cpuInv_keptByParts : KeptByParts CpuInv where
  reset := cpuInv_cpuReset
  take := cpuInv_takeInterrupt
  fetch := cpuInv_fetchInstr
  instr := cpuInv_opOf
  dma := fun _ p _ _ e => p.congr (by rw [transferIfRequested_frame e])
  ppu := fun _ p _ _ e => p.congr (by rw [ppuStep_effects e])

end Sys2Proof.Machine

/-! PROOFS. The PPU counters, the status byte and the keypad cursors stay in range (10 R47, R53, R66). -/

namespace Sys2Proof.Machine

/-- The devices of a running machine. -/
def DeviceInv (s : State) : Prop :=
  CountersInRange s ∧ s.ppu.status &&& 0x3F = 0 ∧ s.keypad1.cursor < 8 ∧ s.keypad2.cursor < 8

theorem registerInv_iff {s : State} : RegisterInv s ↔ CpuInv s ∧ DeviceInv s :=
  ⟨fun h => ⟨⟨h.stack, h.reserved⟩, h.counters, h.status, h.cursor1, h.cursor2⟩,
    fun ⟨⟨hs, hr⟩, hc, ht, h1, h2⟩ => ⟨hs, hr, hc, ht, h1, h2⟩⟩

/-- A status byte that keeps bits 6 to 0 keeps bits 5 to 0 clear (20 R109). -/
theorem status_low_of_and_7F {p q : Byte} (e : q &&& 0x7F = p &&& 0x7F) (h : p &&& 0x3F = 0) : q &&& 0x3F = 0 := by
  have split : ∀ x : Byte, x &&& 0x3F = (x &&& 0x7F) &&& 0x3F := fun x => by rw [BitVec.and_assoc]; rfl
  rw [split, e, ← split, h]

/-- Setting bits above 5 keeps bits 5 to 0 clear. -/
theorem status_low_or {p q : Byte} (hp : p &&& 0x3F = 0) (hq : q &&& 0x3F = 0) : (p ||| q) &&& 0x3F = 0 := by
  rw [BitVec.and_comm, BitVec.and_or_distrib_left, BitVec.and_comm, hp, BitVec.and_comm, hq]; rfl

theorem keypadAdvance_cursor (pad : Keypad) : (keypadAdvance pad).cursor < 8 := Nat.mod_lt _ (by decide)

theorem keypadWrite_cursor (k : Nat) (v : Byte) {pad : Keypad} (h : pad.cursor < 8) :
    (keypadWrite k v pad).cursor < 8 := by
  unfold keypadWrite
  split
  · exact h
  · exact Nat.zero_lt_succ 7

theorem deviceInv_memRead {a : Word} {v : Byte} {s t : State} (e : memRead a s = .ok v t) (p : DeviceInv s) :
    DeviceInv t := by
  obtain ⟨hc, hs, h1, h2⟩ := p
  rcases memRead_cases e with ⟨-, e⟩ | ⟨-, rfl | rfl | rfl⟩
  · have effects := ppuPortRead_effects e
    refine ⟨?_, status_low_of_and_7F effects.2 hs, ?_, ?_⟩
    · unfold CountersInRange; rw [effects.1]; exact hc
    · rw [(ppuPortRead_toggle e).1]; exact h1
    · rw [(ppuPortRead_toggle e).1]; exact h2
  · exact ⟨hc, hs, h1, h2⟩
  · exact ⟨hc, hs, keypadAdvance_cursor _, h2⟩
  · exact ⟨hc, hs, h1, keypadAdvance_cursor _⟩

theorem deviceInv_memWrite {a : Word} {v : Byte} {s t : State} (e : memWrite a v s = .ok () t) (p : DeviceInv s) :
    DeviceInv t := by
  rcases memWrite_cases e with ⟨-, e⟩ | ⟨-, e | e | e⟩
  · rw [(ppuPortWrite_effects e).1]; exact p
  · rw [e]; exact p
  · obtain ⟨hc, hs, h1, h2⟩ := p
    rw [e]; exact ⟨hc, hs, keypadWrite_cursor 1 v h1, h2⟩
  · obtain ⟨hc, hs, h1, h2⟩ := p
    rw [e]; exact ⟨hc, hs, h1, keypadWrite_cursor 2 v h2⟩

theorem Drawn.deviceInv {s t : State} (h : Drawn s t) (p : DeviceInv s) : DeviceInv t := by rw [h]; exact p

theorem deviceInv_spriteZeroTest {s : State} (p : DeviceInv s) : DeviceInv (spriteZeroTest s) := by
  unfold spriteZeroTest
  split
  · exact ⟨p.1, status_low_or p.2.1 (by decide), p.2.2⟩
  · exact p

/-- Every branch of the advance leaves the counters in range (50 R351 to R353). -/
theorem deviceInv_advance : Keeps DeviceInv advance := fun s p _ t e => by
  obtain ⟨⟨hc, hl⟩, hs, hk⟩ := p
  rcases advance_eq_ok e with ⟨lt, rfl⟩ | ⟨_, lt, _, rfl⟩ | ⟨_, _, rfl⟩ | ⟨_, _, u, hu, rfl⟩
  · exact ⟨⟨lt, hl⟩, hs, hk⟩
  · exact ⟨⟨Nat.zero_le _, lt⟩, hs, hk⟩
  · exact ⟨⟨Nat.zero_le _, show 240 ≤ 261 by decide⟩, status_low_or hs (by decide), hk⟩
  · have start : DeviceInv { s with ppu := { s.ppu with cycle := 0 } } := ⟨⟨Nat.zero_le _, hl⟩, hs, hk⟩
    obtain ⟨⟨hc', -⟩, hs', hk'⟩ := (draws_sprites.1 _ _ _ hu).deviceInv start
    refine ⟨⟨hc', Nat.zero_le _⟩, ?_, hk'⟩
    show u.ppu.status &&& 0x3F &&& 0x3F = 0
    rw [hs']; rfl

theorem deviceInv_ppuStep : Keeps DeviceInv ppuStep :=
  keeps_bind (fun s p v t e => (draws_backgroundPart.1 s v t e).deviceInv p) fun _ =>
    keeps_after deviceInv_advance fun _ => deviceInv_spriteZeroTest

theorem deviceInv_keptByMoves : KeptByMoves DeviceInv where
  cpu _ _ p := p
  read _ _ _ _ := deviceInv_memRead
  write _ _ _ _ := deviceInv_memWrite

theorem deviceInv_keptByParts : KeptByParts DeviceInv :=
  deviceInv_keptByMoves.keptByParts (fun _ p _ _ e => by rw [transferIfRequested_frame e]; exact p) deviceInv_ppuStep

theorem deviceInv_step {s t : State} (h : step s = .next t) (p : DeviceInv s) : DeviceInv t :=
  deviceInv_keptByParts.step (fun _ _ p => p) (fun _ _ p => p) h p

/-- Settles O58: the CPU half is kept operation by operation, the device half by every move and by the PPU. -/
theorem stepKeepsRegisterInvariant : Obligations.StepKeepsRegisterInvariant := fun s t hs h => by
  obtain ⟨cpu, devices⟩ := registerInv_iff.mp hs
  exact registerInv_iff.mpr
    ⟨cpuInv_keptByParts.step (fun _ _ p => p) (fun _ _ p => p) h cpu, deviceInv_step h devices⟩

end Sys2Proof.Machine

/-! PROOFS. The memories stay canonical (10 R54 to R62): drawing stays inside the image. -/

namespace Sys2Proof.Machine

section

variable {P : State → Prop}

theorem keeps_colour (index : Nat) : Keeps P (colour index) := keeps_bind (keeps_ppuBusRead _) fun _ => keeps_pure

theorem keeps_patternRow (bank : Bool) (tile : Byte) (row : Nat) : Keeps P (patternRow bank tile row) :=
  keeps_bind (keeps_ppuBusRead _) fun _ => keeps_bind (keeps_ppuBusRead _) fun _ => keeps_pure

theorem keeps_attributeSelector (b : BgPlace) : Keeps P (attributeSelector b) :=
  keeps_bind (keeps_ppuBusRead _) fun _ => keeps_pure

end

/-- One background pixel inside the image. -/
theorem memoryInv_groupPixel {y x : Nat} (hy : y < 240) (hx : x < 256) (index : Nat) (shows : Bool) :
    Keeps MemoryInv fun s => (colour index s).bind fun c s => .ok () (setOpaque y x shows (setPixel y x c s)) :=
  keeps_bind (keeps_colour index) fun _ =>
    keeps_ok fun _ p => memoryInv_setOpaque hy hx (memoryInv_setPixel hy hx p)

/-- A group at a multiple of 8 ends inside its row of 256. -/
theorem memoryInv_backgroundGroup {x y : Nat} (hy : y < 240) (hx : x < 256) (h8 : x % 8 = 0) :
    Keeps MemoryInv (drawBackgroundGroup x y) := by
  have inside : ∀ i ∈ List.range 8, x + i < 256 := fun i hi => by have := List.mem_range.mp hi; omega
  refine keeps_ite (c := fun s => s.ppu.mask.getLsbD 3) (fun s _ p => ?_) fun s _ p => ?_
  · exact ends_bind (keeps_ppuBusRead _ s p) fun tile s p =>
      ends_bind (keeps_attributeSelector _ s p) fun sel s p =>
        ends_bind (keeps_patternRow _ _ _ s p) fun row s p =>
          keeps_forEach (fun i hi => memoryInv_groupPixel hy (inside i hi) _ _) s p
  · exact keeps_forEach (fun i hi => memoryInv_groupPixel hy (inside i hi) 0 false) s p

theorem memoryInv_spritePixel (rec : SpriteRecord) (row : PlaneRow) {py : Nat} (hy : py < 240) (c : Nat) :
    Keeps MemoryInv (drawSpritePixel rec row py c) :=
  keeps_ite (c := fun _ => rec.x + c ≥ 256) (fun _ _ => ends_ok) fun s hx p => by
    generalize pixelValue row (if rec.attr.getLsbD 6 then 7 - c else c) = pix
    split
    · exact ends_ok p
    · split
      · exact ends_ok p
      · exact ends_bind (keeps_colour _ s p) fun _ _ p => ends_ok (memoryInv_setPixel hy (Nat.lt_of_not_ge hx) p)

theorem memoryInv_spriteRow (rec : SpriteRecord) (r : Nat) : Keeps MemoryInv (drawSpriteRow rec r) :=
  keeps_ite (c := fun _ => rec.y + r ≥ 240) (fun _ _ => ends_ok) fun s hy p =>
    ends_bind (keeps_patternRow _ _ _ s p) fun row s p =>
      keeps_forEach (fun c _ => memoryInv_spritePixel rec row (by omega) c) s p

theorem memoryInv_sprites : Keeps MemoryInv drawSprites :=
  keeps_ite (c := fun s => s.ppu.mask.getLsbD 4)
    (fun s _ p => keeps_forEach (fun n _ =>
      keeps_param (p := fun s => spriteRecord s.ppu.spriteRam n) fun rec =>
        keeps_forEach fun r _ => memoryInv_spriteRow rec r) s p)
    fun _ _ => ends_ok

theorem memoryInv_backgroundPart : Keeps MemoryInv backgroundPart :=
  keeps_ite (c := fun s => s.ppu.line < 240 ∧ s.ppu.cycle < 256 ∧ s.ppu.cycle % 8 = 0)
    (fun s ⟨hy, hx, h8⟩ p => memoryInv_backgroundGroup hy hx h8 s p) fun _ _ => ends_ok

theorem memoryInv_advance : Keeps MemoryInv advance := fun s p _ t e => by
  rcases advance_eq_ok e with ⟨_, rfl⟩ | ⟨_, _, _, rfl⟩ | ⟨_, _, rfl⟩ | ⟨_, _, u, hu, rfl⟩
  · exact p.congr rfl rfl rfl rfl rfl rfl rfl
  · exact p.congr rfl rfl rfl rfl rfl rfl rfl
  · exact p.congr rfl rfl rfl rfl rfl rfl rfl
  · have start : MemoryInv { s with ppu := { s.ppu with cycle := 0 } } := p.congr rfl rfl rfl rfl rfl rfl rfl
    exact (memoryInv_sprites _ start _ _ hu).congr rfl rfl rfl rfl rfl rfl rfl

theorem memoryInv_ppuStep : Keeps MemoryInv ppuStep :=
  keeps_bind memoryInv_backgroundPart fun _ => keeps_after memoryInv_advance fun s p => by
    rw [spriteZeroTest_eq]; exact p.congr rfl rfl rfl rfl rfl rfl rfl

theorem MemoryInv.setDma {s : State} (p : MemoryInv s) (d : Dma) : MemoryInv { s with dma := d } :=
  p.congr rfl rfl rfl rfl rfl rfl rfl

theorem memoryInv_transferIfRequested : Keeps MemoryInv transferIfRequested :=
  keeps_ite (c := fun s => s.dma.pending) (fun s _ p => by
    have copied := memoryInv_copyToSpriteRam (s.dma.page.toNat * 0x100) 256 s (Nat.le_refl _) p
    generalize copyToSpriteRam (s.dma.page.toNat * 0x100) 256 s = t at copied
    split
    · exact ends_fault
    · exact ends_ok (copied.setDma _))
    fun _ _ => ends_ok

theorem memoryInv_keptByMoves : KeptByMoves MemoryInv where
  cpu _ _ p := p.congr rfl rfl rfl rfl rfl rfl rfl
  read _ _ _ _ e := readEffects_memoryInv (memRead_effects e)
  write _ _ _ _ := memoryInv_memWrite

/-- Settles O59: bus writes, the sprite copy and drawing each keep the canonical forms. Drawing tests its own bounds,
so the register invariant is not used. -/
theorem stepKeepsMemoryInvariant : Obligations.StepKeepsMemoryInvariant := fun _ _ _ hs h =>
  (memoryInv_keptByMoves.keptByParts memoryInv_transferIfRequested memoryInv_ppuStep).step
    (fun _ _ p => p.congr rfl rfl rfl rfl rfl rfl rfl) (fun _ _ p => p.congr rfl rfl rfl rfl rfl rfl rfl) h hs

/-- Settles O60: the state is fixed, so every clause is computed. -/
theorem resetMeetsTheInvariants : Obligations.ResetMeetsTheInvariants :=
  ⟨registerInv_iff.mpr ⟨⟨by unfold StackInPage; decide, rfl⟩, ⟨by decide, by decide⟩, rfl, by decide, by decide⟩,
    reset_memoryInv, rfl, rfl⟩

end Sys2Proof.Machine

/-! PROOFS. The parameters never change, and only the host raises IRQ (10 R41, R59). -/

namespace Sys2Proof.Machine

theorem Moves.frame {s t : State} (h : Moves s t) : t.int = s.int ∧ t.fault = s.fault ∧ t.config = s.config := by
  induction h with
  | refl => exact ⟨rfl, rfl, rfl⟩
  | cpu _ _ ih => exact ih
  | read _ r ih =>
    obtain ⟨-, hi, -, -, -, -, -, hf, hc, -⟩ := (memRead_effects r).fields
    rw [hi, hf, hc]; exact ih
  | write _ w ih =>
    obtain ⟨-, hi, hf, hc, -⟩ := (memWrite_effects w).1.fields
    rw [hi, hf, hc]; exact ih

/-- A property of the IRQ latch, the fault register and the parameters alone is kept by every part of a step. -/
theorem keptByParts_of_frame {Q : Bool → Option Fault → Config → Prop} :
    KeptByParts fun s => Q s.int.irq s.fault s.config := by
  have moves : KeptByMoves fun s => Q s.int.irq s.fault s.config := by
    refine ⟨fun _ _ p => p, fun a s v t e p => ?_, fun a v s t e p => ?_⟩
    · obtain ⟨hi, hf, hc⟩ := ((Moves.refl s).read e).frame
      rw [hi, hf, hc]; exact p
    · obtain ⟨hi, hf, hc⟩ := ((Moves.refl s).write e).frame
      rw [hi, hf, hc]; exact p
  exact moves.keptByParts (fun s p _ t e => by rw [transferIfRequested_frame e]; exact p)
    fun s p _ t e => by rw [ppuStep_effects e]; exact p

/-- IRQ is set after host actions only if it was before, or one of them raised it (60 R480). -/
theorem hostActions_irq : ∀ (hs : List HostAction) {s t : State}, hostActions hs s = .ok () t → t.int.irq = true →
    s.int.irq = true ∨ .irqAssert ∈ hs
  | [], _, _, e, h => by cases e; exact .inl h
  | .irqAssert :: _, _, _, _, _ => .inr List.mem_cons_self
  | .cpuReset :: hs, s, t, e, h => by
    obtain ⟨⟨⟩, u, h1, h2⟩ := bind_eq_ok.mp e
    have hu : u.int = s.int := (moving_cpuReset s _ u h1).frame.1
    exact (hostActions_irq hs h2 h).imp (fun hi => by rw [← hu]; exact hi) (List.mem_cons_of_mem _)

theorem hostPart_irq {s t : State} (e : hostPart s = .ok () t) (h : t.int.irq = true) :
    s.int.irq = true ∨ ∃ hs rest, s.schedule = hs :: rest ∧ .irqAssert ∈ hs := by
  unfold hostPart at e
  split at e
  · cases e; exact .inl h
  · exact (hostActions_irq _ e h).imp_right fun hm => ⟨_, _, ‹_›, hm⟩

/-- A step keeps what is said of the fault register and the parameters alone. -/
theorem step_frame {s t : State} (h : step s = .next t) : t.fault = s.fault ∧ t.config = s.config :=
  (keptByParts_of_frame (Q := fun _ f c => f = s.fault ∧ c = s.config)).step (fun _ _ p => p) (fun _ _ p => p) h
    ⟨rfl, rfl⟩

/-- Settles O49: after the host's part the IRQ latch can only be cleared. -/
theorem irqAndParametersComeFromTheHost : Obligations.IrqAndParametersComeFromTheHost := fun s t h => by
  refine ⟨(step_frame h).2, ?_⟩
  refine (keptByParts_of_frame (Q := fun irq _ _ => irq = true →
      s.int.irq = true ∨ ∃ hs rest, s.schedule = hs :: rest ∧ .irqAssert ∈ hs)).after_step ?_ ?_ h
  · exact fun _ p => ⟨p, fun hi => nomatch hi⟩
  · exact fun _ _ e => hostPart_irq e

end Sys2Proof.Machine

/-! PROOFS. A fault ends the step where it is met (60 R491): each part of a step and of an operation, in order. -/

namespace Sys2Proof.Machine

theorem bind_of_fault {α β : Type} {r : Result α} {k : α → State → Result β} {f : Fault} (h : r = .fault f) :
    r.bind k = .fault f := by rw [h, bind_fault]

theorem bind_of_ok {α β : Type} {r : Result α} {k : α → State → Result β} {v : α} {s : State} (h : r = .ok v s) :
    r.bind k = k v s := by rw [h, bind_ok]

theorem exec_eq_fault {i : Instr} {s : State} {f : Fault} :
    exec i s = .fault f ↔ opOf i.row.name (formOf i) s = .fault f := by rw [exec_eq, outcome_eq_fault]

/-- A fault up to the decode is the fault of the step. -/
theorem step_prepare_fault {s : State} {f : Fault} (hs : s.fault = none) (h : prepare s = .fault f) :
    step s = .fault f := by simp only [step, hs, h]

theorem step_beforeFetch_fault {s : State} {f : Fault} (hs : s.fault = none) (h : beforeFetch s = .fault f) :
    step s = .fault f := step_prepare_fault hs (bind_of_fault h)

theorem step_fetchInstr_fault {s t : State} {f : Fault} (hs : s.fault = none) (h : beforeFetch s = .ok () t)
    (hf : fetchInstr t = .fault f) : step s = .fault f := step_prepare_fault hs ((bind_of_ok h).trans hf)

/-- With nothing scheduled the host's part does nothing. -/
theorem hostPart_empty {s : State} (h : s.schedule = []) : hostPart s = .ok () s := by simp only [hostPart, h]

theorem transferIfRequested_idle {s : State} (h : s.dma.pending = false) : transferIfRequested s = .ok () s := by
  simp [transferIfRequested, h]

/-- A request for a page outside working RAM (51 R432). -/
theorem transferIfRequested_fault {s : State} (h : s.dma.pending = true) (hp : 8 ≤ s.dma.page.toNat) :
    transferIfRequested s = .fault (.dmaSourceOutOfRange s.dma.page) := by
  simp [transferIfRequested, h, hp]

theorem beforeFetch_dma_fault {s t : State} {f : Fault} (h : hostPart s = .ok () t)
    (hd : transferIfRequested t = .fault f) : beforeFetch s = .fault f := (bind_of_ok h).trans (bind_of_fault hd)

theorem beforeFetch_poll_fault {s t u : State} {f : Fault} (h : hostPart s = .ok () t)
    (hd : transferIfRequested t = .ok () u) (hi : handleInterrupts u = .fault f) : beforeFetch s = .fault f :=
  (bind_of_ok h).trans ((bind_of_ok hd).trans hi)

theorem takeInterrupt_frame_fault {vector : Word} {s : State} {f : Fault}
    (h : pushFrame (s.setFlag .B false) = .fault f) : takeInterrupt vector s = .fault f := bind_of_fault h

/-- NMI entry with a full stack (60 R475, R484). -/
theorem handleInterrupts_nmi_full {s : State} (h : s.int.nmi = true) (hs : s.cpu.sp = 0x0100) :
    handleInterrupts s = .fault (.stackPointerOverflow 0x00FF) := by
  have full : 0x0100 ≤ s.cpu.sp.toNat ∧ s.cpu.sp.toNat ≤ 0x0102 := by rw [hs]; decide
  have entry : handleInterrupts s = serviceNmi s := by simp [handleInterrupts, h]
  rw [entry]
  exact takeInterrupt_frame_fault (pushFrame_full full)

/-- The operations that resolve the operand form of their instruction. -/
def OpKind.usesOperand : OpKind → Bool
  | .read | .store | .modify | .jump => true
  | _ => false

/-- The rows of the other operations have a form that reads no pointer (40 R167). -/
theorem resolve_formOf_unused {i : Instr} (h : (kindOf i.row.name).usesOperand = false) (s : State) :
    ∃ op, resolve (formOf i) s = .ok op s := by
  cases i <;> first | exact ⟨_, rfl⟩ | cases h

theorem opOf_resolve_fault {name : Mnemonic} {form : Form} {s : State} {f : Fault}
    (hn : (kindOf name).usesOperand = true) (h : resolve form s = .fault f) : opOf name form s = .fault f := by
  cases hk : kindOf name with
  | read => obtain ⟨effect, -, e⟩ := opOf_read hk; rw [e]; exact bind_of_fault (bind_of_fault h)
  | store => obtain ⟨source, e⟩ := opOf_store hk; rw [e]; exact bind_of_fault h
  | modify => obtain ⟨_, _, _, -, -, e⟩ := opOf_modify hk; rw [e]; exact bind_of_fault h
  | jump => cases name <;> first | exact bind_of_fault h | cases hk
  | _ => rw [hk] at hn; cases hn

/-- A pointer read that faults ends the instruction. -/
theorem exec_resolve_fault {i : Instr} {s : State} {f : Fault} (h : resolve (formOf i) s = .fault f) :
    exec i s = .fault f := by
  cases hn : (kindOf i.row.name).usesOperand with
  | true => exact exec_eq_fault.mpr (opOf_resolve_fault hn h)
  | false =>
    obtain ⟨op, e⟩ := resolve_formOf_unused hn s
    rw [h] at e; cases e

/-- A store whose write faults. -/
theorem exec_store_fault {i : Instr} {s t : State} {a : Word} {f : Fault} (hk : kindOf i.row.name = .store)
    (h : resolve (formOf i) s = .ok (.address a) t) (hw : ∀ v, memWrite a v t = .fault f) : exec i s = .fault f := by
  obtain ⟨source, e⟩ := opOf_store hk
  rw [exec_eq_fault, e, storeInstr_eq h, hw]

/-- A read-modify-write whose read faults. -/
theorem exec_modify_read_fault {i : Instr} {s t : State} {a : Word} {f : Fault} (hk : kindOf i.row.name = .modify)
    (h : resolve (formOf i) s = .ok (.address a) t) (hr : memRead a t = .fault f) : exec i s = .fault f := by
  obtain ⟨_, _, _, -, -, e⟩ := opOf_modify hk
  rw [exec_eq_fault, e]
  exact (bind_of_ok h).trans (bind_of_fault hr)

/-- A read-modify-write whose write faults: the flags written before the store do not matter to it. -/
theorem exec_modify_write_fault {i : Instr} {s t u : State} {a : Word} {m : Byte} {f : Fault}
    (hk : kindOf i.row.name = .modify) (h : resolve (formOf i) s = .ok (.address a) t) (hr : memRead a t = .ok m u)
    (hw : ∀ v, memWrite a v u = .fault f) : exec i s = .fault f := by
  obtain ⟨result, early, late, he, -, e⟩ := opOf_modify hk
  rw [exec_eq_fault, e, modifyInstr_eq h hr]
  refine bind_of_fault ?_
  rw [(he m).cpuOnly u, memWrite_cpu, hw, mapState_fault]

theorem kindOf_store : ∀ name ∈ [Mnemonic.STA, .STX, .STY, .SAX], kindOf name = .store := by decide

theorem kindOf_modify : ∀ name ∈ [Mnemonic.INC, .DEC, .ASL, .LSR, .ROL, .ROR, .DCP, .ISB, .SLO, .SRE, .RLA, .RRA],
    kindOf name = .modify := by decide

/-- Settles O8: the step and every operation are binds, and a bind stops at its first fault. -/
theorem faultsAreTerminalAndTheFirstDecides : Obligations.FaultsAreTerminalAndTheFirstDecides := by
  refine ⟨fun s f hs => ⟨?_, ?_⟩, fun s f hs h => ?_, fun s t h => ?_, fun _ _ => bind_of_fault,
    fun _ _ h => ⟨fun _ => beforeFetch_dma_fault h, fun _ _ => beforeFetch_poll_fault h⟩,
    fun _ _ _ => ⟨takeInterrupt_frame_fault, fun _ h hr => (bind_of_ok h).trans (bind_of_fault hr)⟩,
    fun _ _ => step_beforeFetch_fault, fun s s1 hs h => ⟨fun f hf => ?_, fun opcode s2 hf hn => ?_⟩,
    fun s t i hs h => ⟨fun f he => ?_, fun u f he hp => ?_⟩, fun _ _ _ => exec_resolve_fault,
    fun _ _ _ _ _ hn => exec_store_fault (kindOf_store _ hn),
    fun _ _ _ _ _ hn h => ⟨exec_modify_read_fault (kindOf_modify _ hn) h,
      fun _ _ => exec_modify_write_fault (kindOf_modify _ hn) h⟩,
    fun s hs hh hd hp => ?_, fun s hs hh hd hn hsp => ?_⟩
  · simp only [step, hs]
  · simp only [hostStep, hs]
  · simp only [hostStep, hs, h]
  · have hs : s.fault = none := (step_eq_next.mp h).1
    exact ⟨hs, (step_frame h).1.trans hs, by simp only [hostStep, hs, h]⟩
  · exact step_fetchInstr_fault hs h (hf.elim bind_of_fault id)
  · refine step_fetchInstr_fault hs h ((bind_of_ok hf).trans ?_)
    simp only [hn]
  · simp only [step, hs, h, he]
  · simp only [step, hs, h, he, hp, outcome_fault]
  · exact step_beforeFetch_fault hs (beforeFetch_dma_fault (hostPart_empty hh) (transferIfRequested_fault hd hp))
  · exact step_beforeFetch_fault hs
      (beforeFetch_poll_fault (hostPart_empty hh) (transferIfRequested_idle hd) (handleInterrupts_nmi_full hn hsp))

end Sys2Proof.Machine

/-! PROOFS. The CPU bus region by region: one rule for each row of 20 R81 and R82. -/

namespace Sys2Proof.Machine

/-- The port of an address, read off as a number (20 R84). -/
theorem toNat_and_seven (a : Word) : (a &&& 7).toNat = a.toNat % 8 := by
  rw [BitVec.toNat_and]
  exact Nat.and_two_pow_sub_one_eq_mod a.toNat 3

theorem memRead_port {a : Word} (h : InPortWindow a) (s : State) : memRead a s = ppuPortRead (a.toNat % 8) s := by
  obtain ⟨lo, hi⟩ := h
  unfold memRead busRead
  rw [if_neg (by omega), if_pos hi]

/-- Between the PPU window and the ROM only the keypads are read: 0x4014 is write-only, the rest is unused. -/
theorem memRead_unused {a : Word} (lo : 0x4000 ≤ a.toNat) (hi : a.toNat < 0x8000) (h1 : a ≠ 0x4016)
    (h2 : a ≠ 0x4017) (s : State) : memRead a s = .ok 0x00 s := by
  unfold memRead busRead
  rw [if_neg (by omega), if_neg (by omega)]
  by_cases h : a.toNat = 0x4014
  · rw [if_pos h]
  · rw [if_neg h, if_neg (by bv_omega), if_neg (by bv_omega), if_pos hi]

theorem memRead_noRom {a : Word} (h : 0x8000 ≤ a.toNat) {s : State} (hr : s.config.prgRom = none) :
    memRead a s = .fault (.resourceNotConnected .programRom) := by
  unfold memRead busRead
  rw [if_neg (by omega), if_neg (by omega), if_neg (by omega), if_neg (by omega), if_neg (by omega),
    if_neg (by omega), if_pos a.isLt, hr]

theorem memWrite_port {a : Word} (h : InPortWindow a) (v : Byte) (s : State) :
    memWrite a v s = ppuPortWrite (a.toNat % 8) v s := by
  obtain ⟨lo, hi⟩ := h
  unfold memWrite busWrite
  rw [if_neg (by omega), if_pos hi]

theorem memWrite_unused {a : Word} (lo : 0x4000 ≤ a.toNat) (hi : a.toNat < 0x8000) (h0 : a ≠ 0x4014)
    (h1 : a ≠ 0x4016) (h2 : a ≠ 0x4017) (v : Byte) (s : State) : memWrite a v s = .ok () s := by
  unfold memWrite busWrite
  rw [if_neg (by omega), if_neg (by omega), if_neg (by bv_omega), if_neg (by bv_omega), if_neg (by bv_omega),
    if_pos hi]

/-- A write to program ROM space stores nothing (20 R90, R91). -/
theorem memWrite_romSpace {a : Word} (h : 0x8000 ≤ a.toNat) (v : Byte) (s : State) :
    memWrite a v s =
      if s.config.prgRom.isSome then .ok () s else .fault (.resourceNotConnected .programRom) := by
  unfold memWrite busWrite
  rw [if_neg (by omega), if_neg (by omega), if_neg (by omega), if_neg (by omega), if_neg (by omega),
    if_neg (by omega), if_pos a.isLt]
  cases s.config.prgRom <;> rfl

/-- A full-size ROM fills its window (20 R89). -/
theorem prgOffset_kib32 (a : Nat) : prgOffset .kib32 a = a - 0x8000 := rfl

/-- A half-size ROM is seen twice (20 R89). -/
theorem prgOffset_kib16 (a : Nat) : prgOffset .kib16 a = (a - 0x8000) % 0x4000 := rfl

/-- Settles O39: each region by its rule; at a keypad address the read is computed. -/
theorem cpuBusReadMap : Obligations.CpuBusReadMap := by
  refine fun a s => ⟨fun h => memRead_wram h s, fun h => ?_, fun h => ?_, fun h => ?_,
    fun ⟨lo, hi, h1, h2⟩ => memRead_unused lo hi h1 h2 s, fun h hr => memRead_noRom h hr,
    fun m h hr => ?_, fun m h hr => ?_⟩
  · rw [toNat_and_seven]; exact memRead_port h s
  · rw [h]; rfl
  · rw [h]; rfl
  · rw [memRead_rom h hr, prgOffset_kib32]
  · rw [memRead_rom h hr, prgOffset_kib16]

/-- Settles O40: each region by its rule; at 0x4014 and the keypad addresses the accesses are computed. -/
theorem cpuBusWriteMap : Obligations.CpuBusWriteMap := by
  refine fun a v s => ⟨fun h => memWrite_wram h v s, fun h => ?_, fun h => ?_, fun h => ?_, fun h => ?_,
    fun ⟨lo, hi, h0, h1, h2⟩ => memWrite_unused lo hi h0 h1 h2 v s, fun h hr => ?_, fun h hr => ?_⟩
  · rw [toNat_and_seven]; exact memWrite_port h v s
  · rw [h]; exact ⟨rfl, rfl⟩
  · rw [h]; rfl
  · rw [h]; rfl
  · rw [memWrite_romSpace h, if_pos hr]
  · rw [memWrite_romSpace h, hr]; rfl

/-- A read of program ROM space changes nothing, and without a ROM it does not end well (20 R89, R91). -/
theorem memRead_romSpace_state {a : Word} {v : Byte} {s t : State} (h : 0x8000 ≤ a.toNat)
    (e : memRead a s = .ok v t) : t = s := by
  cases hr : s.config.prgRom with
  | none => rw [memRead_noRom h hr] at e; cases e
  | some rom => rw [memRead_rom h hr] at e; cases e; rfl

/-- The ports other than 2 and 7 read without a side effect (50 R378, R384). -/
theorem ppuPortRead_quiet {p : Nat} (h2 : p ≠ 2) (h7 : p ≠ 7) {v : Byte} {s t : State}
    (h : ppuPortRead p s = .ok v t) : t = s := by
  unfold ppuPortRead at h
  split at h
  · exact absurd rfl h2
  · cases h; rfl
  · exact absurd rfl h7
  · cases h; rfl

/-- Port 7 moves the read buffer and the video address only (50 R382, R383). -/
theorem readVramData_state {v : Byte} {s t : State} (h : readVramData s = .ok v t) : t = { s with
    ppu := { s.ppu with readBuffer := t.ppu.readBuffer, videoRamAddress := t.ppu.videoRamAddress } } := by
  obtain ⟨b, u, h1, h2⟩ := bind_eq_ok.mp h
  obtain rfl := ppuBusRead_state h1
  split at h2 <;> cases h2 <;> rfl

theorem readHasEffect_eq_false {a : Word} : readHasEffect a = false ↔
    (InPortWindow a → a.toNat % 8 ≠ 2 ∧ a.toNat % 8 ≠ 7) ∧ a ≠ 0x4016 ∧ a ≠ 0x4017 := by
  simp [readHasEffect, InPortWindow, and_assoc]

/-- An address without a read effect is a quiet port, or stands in a region that reads storage or nothing. -/
theorem memRead_quiet {a : Word} {v : Byte} {s t : State} (hq : readHasEffect a = false)
    (h : memRead a s = .ok v t) : t = s := by
  obtain ⟨quietPort, h1, h2⟩ := readHasEffect_eq_false.mp hq
  by_cases hp : InPortWindow a
  · obtain ⟨n2, n7⟩ := quietPort hp
    rw [memRead_port hp] at h
    exact ppuPortRead_quiet n2 n7 h
  by_cases hw : a.toNat < 0x2000
  · rw [memRead_wram hw] at h; cases h; rfl
  have lo : 0x4000 ≤ a.toNat := Nat.le_of_not_lt fun hi => hp ⟨Nat.le_of_not_lt hw, hi⟩
  by_cases hi : a.toNat < 0x8000
  · rw [memRead_unused lo hi h1 h2] at h; cases h; rfl
  · exact memRead_romSpace_state (Nat.le_of_not_lt hi) h

/-- Settles O41: away from the listed addresses a read is quiet; at each of them its rule gives the state after it. -/
theorem onlyListedReadsHaveASideEffect : Obligations.OnlyListedReadsHaveASideEffect := by
  refine ⟨fun a v s t h => ⟨fun hq => memRead_quiet hq h, fun ⟨lo, hi, hp⟩ => ?_, fun ⟨lo, hi, hp⟩ => ?_,
    fun ha => ?_, fun ha => ?_⟩, fun _ _ _ => fetch_eq_ok⟩
  · rw [memRead_port ⟨lo, hi⟩, hp] at h; cases h; rfl
  · rw [memRead_port ⟨lo, hi⟩, hp] at h; exact readVramData_state h
  · rw [ha] at h; cases h; rfl
  · rw [ha] at h; cases h; rfl

end Sys2Proof.Machine

/-! PROOFS. The PPU bus as a decoding of addresses into cells, and the cells as independent bytes (20 R95 to R103). -/

namespace Sys2Proof.Machine

/-- Whether the memory of a cell is attached: character memory may be absent (20 R103). -/
def PpuCell.attached (s : State) : PpuCell → Bool
  | .chr _ => s.chr.isSome
  | _ => true

/-- The byte a cell holds. -/
def PpuCell.byte (s : State) : PpuCell → Byte
  | .chr k => byteAt (s.chr.getD []) k
  | .vram k => byteAt s.vram k
  | .palette k => byteAt s.palette k

/-- The state after a byte is stored in a cell. -/
def PpuCell.store (v : Byte) (s : State) : PpuCell → State
  | .chr k => { s with chr := s.chr.map fun m => setByte m k v }
  | .vram k => { s with vram := setByte s.vram k v }
  | .palette k => { s with palette := setByte s.palette k v }

/-- The read of a cell. -/
def PpuCell.read (s : State) (c : PpuCell) : Result Byte :=
  if c.attached s then .ok (c.byte s) s else .fault (.resourceNotConnected .characterMemory)

/-- The write of a cell. -/
def PpuCell.write (v : Byte) (s : State) (c : PpuCell) : Result Unit :=
  if c.attached s then .ok () (c.store v s) else .fault (.resourceNotConnected .characterMemory)

theorem PpuCell.read_eq_fault {s : State} {c : PpuCell} :
    c.read s = .fault (.resourceNotConnected .characterMemory) ↔ c.attached s = false := by
  cases h : c.attached s <;> simp [read, h]

theorem PpuCell.write_eq_fault {v : Byte} {s : State} {c : PpuCell} :
    c.write v s = .fault (.resourceNotConnected .characterMemory) ↔ c.attached s = false := by
  cases h : c.attached s <;> simp [write, h]

/-- A stored byte reads back, and every other cell keeps what it held. -/
theorem PpuCell.byte_store {s : State} (h : s.chr.isSome = true) (c d : PpuCell) (v : Byte) :
    d.byte (c.store v s) = if c = d then v else d.byte s := by
  obtain ⟨m, hm⟩ := Option.isSome_iff_exists.mp h
  cases c with
  | chr k => cases d <;> simp [byte, store, hm, byteAt_setByte, eq_comm]
  | vram k => cases d <;> simp [byte, store, byteAt_setByte, eq_comm]
  | palette k => cases d <;> simp [byte, store, byteAt_setByte, eq_comm]

theorem PpuCell.store_config (v : Byte) (s : State) (c : PpuCell) : (c.store v s).config = s.config := by
  cases c <;> rfl

theorem PpuCell.store_attached (v : Byte) (s : State) (c d : PpuCell) :
    d.attached (c.store v s) = d.attached s := by
  cases d with
  | chr => cases c <;> simp [attached, store]
  | _ => rfl

theorem PpuCell.attached_of_chr {s : State} (h : s.chr.isSome = true) (c : PpuCell) : c.attached s = true := by
  cases c with
  | chr => exact h
  | _ => rfl

/-- Pattern space is character memory (20 R97). -/
theorem ppuCell_pattern {a : Word} (h : ppuAddress a < 0x2000) (c : Config) : ppuCell c a = .chr (ppuAddress a) :=
  if_pos h

/-- Name-table space and its mirror (20 R98, R99). -/
theorem ppuCell_nametable {a : Word} (lo : 0x2000 ≤ ppuAddress a) (hi : ppuAddress a < 0x3F00) (c : Config) :
    ppuCell c a = .vram (nametableMirror c (ppuAddress a % 0x1000)) :=
  (if_neg (Nat.not_lt.mpr lo)).trans (if_pos hi)

/-- Palette space (20 R100, R101). -/
theorem ppuCell_palette {a : Word} (h : 0x3F00 ≤ ppuAddress a) (c : Config) :
    ppuCell c a = .palette (palIndex (ppuAddress a)) :=
  (if_neg (by change ¬ ppuAddress a < _; omega)).trans (if_neg (Nat.not_lt.mpr h))

/-- The backdrop aliases are chosen after the reduction to 32 bytes (20 R100, R101). -/
theorem palIndex_add_period (b : Nat) : palIndex (b + 0x20) = palIndex b := by
  unfold palIndex
  rw [Nat.add_mod_right]

/-- The four windows of the PPU bus decode as `ppuCell` does, and the row after them is out of reach (20 R95). -/
theorem ppuDecode_eq {β : Type} (a : Word) (c : Config) (f : PpuCell → β) (unreachable : β) :
    (if ppuAddress a < 0x2000 then f (.chr (ppuAddress a))
      else if ppuAddress a < 0x3000 then f (.vram (nametableMirror c (ppuAddress a - 0x2000)))
      else if ppuAddress a < 0x3F00 then f (.vram (nametableMirror c (ppuAddress a - 0x3000)))
      else if ppuAddress a < 0x4000 then f (.palette (palIndex (ppuAddress a)))
      else unreachable) = f (ppuCell c a) := by
  split
  · rw [ppuCell_pattern ‹_›]
  split
  · rw [ppuCell_nametable (by omega) (by omega), show ppuAddress a % 0x1000 = ppuAddress a - 0x2000 by omega]
  split
  · rw [ppuCell_nametable (by omega) (by omega), show ppuAddress a % 0x1000 = ppuAddress a - 0x3000 by omega]
  · rw [if_pos (ppuAddress_lt a), ppuCell_palette (by omega)]

/-- The PPU bus reads the cell its address reaches (20 R95). -/
theorem ppuBusRead_eq (a : Word) (s : State) : ppuBusRead a s = (ppuCell s.config a).read s := by
  refine .trans ?_ (ppuDecode_eq a s.config (PpuCell.read s) (.fault (.invalidBusAddress (ppuAddress a))))
  cases h : s.chr <;> simp [ppuBusRead, PpuCell.read, PpuCell.attached, PpuCell.byte, h]

/-- The PPU bus writes the cell its address reaches (20 R96). -/
theorem ppuBusWrite_eq (a : Word) (v : Byte) (s : State) : ppuBusWrite a v s = (ppuCell s.config a).write v s := by
  refine .trans ?_ (ppuDecode_eq a s.config (PpuCell.write v s) (.fault (.invalidBusAddress (ppuAddress a))))
  cases h : s.chr <;> simp [ppuBusWrite, PpuCell.write, PpuCell.attached, PpuCell.store, h]

/-- Without character memory exactly pattern space is unattached (20 R103). -/
theorem ppuCell_attached_eq_false {s : State} (h : s.chr = none) {c : Config} {a : Word} :
    (ppuCell c a).attached s = false ↔ ppuAddress a < 0x2000 := by
  by_cases lo : ppuAddress a < 0x2000
  · simp [ppuCell_pattern lo, PpuCell.attached, h, lo]
  by_cases hi : ppuAddress a < 0x3F00
  · simp [ppuCell_nametable (Nat.le_of_not_lt lo) hi, PpuCell.attached, lo]
  · simp [ppuCell_palette (Nat.le_of_not_lt hi), PpuCell.attached, lo]

/-- Cells depend on the 14-bit address alone (20 R95). -/
theorem ppuCell_congr {a b : Word} (h : ppuAddress a = ppuAddress b) (c : Config) : ppuCell c a = ppuCell c b := by
  unfold ppuAddress at h
  unfold ppuCell
  rw [h]

theorem ppuAddress_add_period (a : Word) : ppuAddress (a + 0x4000) = ppuAddress a := by
  unfold ppuAddress
  bv_omega

/-- The name tables repeat below the palette (20 R99). -/
theorem ppuCell_nametable_repeats {a : Word} (lo : 0x3000 ≤ a.toNat) (hi : a.toNat < 0x3F00) (c : Config) :
    ppuCell c a = ppuCell c (a - 0x1000) := by
  have here : ppuAddress a = a.toNat := Nat.mod_eq_of_lt (by omega)
  have there : ppuAddress (a - 0x1000) = a.toNat - 0x1000 := by unfold ppuAddress; bv_omega
  rw [ppuCell_nametable (by omega) (by omega), ppuCell_nametable (by omega) (by omega), there, here,
    show (a.toNat - 0x1000) % 0x1000 = a.toNat % 0x1000 by omega]

/-- The palette repeats every 32 bytes (20 R101). -/
theorem ppuCell_palette_repeats {a : Word} (lo : 0x3F00 ≤ a.toNat) (hi : a.toNat < 0x3FE0) (c : Config) :
    ppuCell c (a + 0x20) = ppuCell c a := by
  have here : ppuAddress a = a.toNat := Nat.mod_eq_of_lt (by omega)
  have there : ppuAddress (a + 0x20) = a.toNat + 0x20 := by unfold ppuAddress; bv_omega
  rw [ppuCell_palette (by omega), ppuCell_palette (by omega), there, here, palIndex_add_period]

/-- Settles O42: both accesses go through the cell of their address, cells are independent bytes, and the mirrors are
equal cells. -/
theorem ppuBusIsAFixedDecoding : Obligations.PpuBusIsAFixedDecoding := by
  refine ⟨fun a b v s hs => ?_, fun a v s hs => ⟨?_, ?_⟩, fun c a => ⟨ppuCell_congr (ppuAddress_add_period a) c,
    fun ⟨lo, hi⟩ => ppuCell_nametable_repeats lo hi c, fun ⟨lo, hi⟩ => ppuCell_palette_repeats lo hi c, rfl, rfl, rfl,
    rfl, nofun⟩⟩
  · have attached : ∀ c : PpuCell, c.attached s = true := PpuCell.attached_of_chr hs
    have write : ppuBusWrite a v s = .ok () ((ppuCell s.config a).store v s) :=
      (ppuBusWrite_eq a v s).trans (if_pos (attached _))
    refine ⟨_, (ppuCell s.config b).byte s, write, (ppuBusRead_eq b s).trans (if_pos (attached _)), ?_,
      (ppuBusWrite_state write).1⟩
    rw [ppuBusRead_eq, PpuCell.store_config, PpuCell.read, PpuCell.store_attached, if_pos (attached _),
      PpuCell.byte_store hs]
  · rw [ppuBusRead_eq, PpuCell.read_eq_fault]; exact ppuCell_attached_eq_false hs
  · rw [ppuBusWrite_eq, PpuCell.write_eq_fault]; exact ppuCell_attached_eq_false hs

end Sys2Proof.Machine

/-! PROOFS. The decoder and the encoder against each other, through the operation table (30 R140 to R149). -/

namespace Sys2Proof

/-- Every offset byte stands for a displacement of a well-formed instruction (30 R142). -/
theorem displacementFits_displacementOf (d8 : Byte) : displacementFits (displacementOf d8) = true :=
  Bool.and_eq_true_iff.mpr ⟨decide_eq_true d8.le_toInt, decide_eq_true (Int.le_of_lt_add_one d8.toInt_lt)⟩

@[simp] theorem offsetByte_displacementOf (d8 : Byte) : offsetByte (displacementOf d8) = d8 := BitVec.ofInt_toInt

/-- A displacement that fits is the one of some offset byte. -/
theorem exists_displacementOf_eq {disp : Int} (h : displacementFits disp = true) : ∃ d8, displacementOf d8 = disp :=
  ⟨offsetByte disp, Laws.RoundTrip.displacement_roundTrip h⟩

@[simp] theorem lowByte_wordOfBytes (lo hi : Byte) : lowByte (wordOfBytes lo hi) = lo :=
  BitVec.setWidth_append_eq_right

@[simp] theorem highByte_wordOfBytes (lo hi : Byte) : highByte (wordOfBytes lo hi) = hi :=
  BitVec.extractLsb'_append_eq_left

/-- The operand bytes that complete a template, and the instruction they give (30 R140). -/
inductive Template.Completes : Template → List Byte → Instr → Prop where
  | none (i : Instr) : Template.Completes (.none i) [] i
  | byte (build : Byte → Instr) (d8 : Byte) : Template.Completes (.byte build) [d8] (build d8)
  | word (build : Word → Instr) (w : Word) : Template.Completes (.word build) [lowByte w, highByte w] (build w)

/-- What decodes to an instruction is an opcode and the operand bytes that complete its entry (30 R140). -/
theorem decode_eq_instr_iff {bytes rest : List Byte} {i : Instr} : decode bytes = .instr i rest ↔
    ∃ opcode t operands,
      opcodeEntry opcode = some t ∧ t.Completes operands i ∧ bytes = opcode :: (operands ++ rest) := by
  constructor
  · intro h
    unfold decode at h
    split at h
    · cases h
    next opcode tail =>
      split at h <;> cases h
      case h_2 j ht => exact ⟨opcode, _, _, ht, .none i, rfl⟩
      case h_3 build d8 ht => exact ⟨opcode, _, _, ht, .byte build d8, rfl⟩
      case h_5 build lo hi ht =>
        refine ⟨opcode, _, _, ht, .word build (wordOfBytes lo hi), ?_⟩
        rw [lowByte_wordOfBytes, highByte_wordOfBytes]; rfl
  · rintro ⟨opcode, t, operands, ht, hc, rfl⟩
    cases hc with
    | none => exact Laws.RoundTrip.decode_none ht rest
    | byte build d8 => exact Laws.RoundTrip.decode_byte ht d8 rest
    | word build w => exact Laws.RoundTrip.decode_word ht w rest

/-- A well-formed instruction completes the entry of its own opcode. -/
theorem opcodeEntry_completes {i : Instr} (h : i.wellFormed = true) :
    ∃ t, opcodeEntry i.row.opcode = some t ∧ t.Completes i.operandBytes i := by
  cases i <;> dsimp only [Instr.row, Instr.operandBytes]
  case bcc disp | bcs disp | beq disp | bne disp | bmi disp | bpl disp | bvc disp | bvs disp =>
    obtain ⟨d8, rfl⟩ := exists_displacementOf_eq h
    rw [offsetByte_displacementOf]
    exact ⟨_, rfl, .byte _ d8⟩
  all_goals
    refine ⟨_, rfl, ?_⟩
    constructor

/-- Settles O2: the operand bytes of the instruction complete the entry of its opcode. -/
theorem decodeOfEncodeGivesTheInstructionBack : Obligations.DecodeOfEncodeGivesTheInstructionBack := fun _ _ h => by
  obtain ⟨t, ht, hc⟩ := opcodeEntry_completes h
  exact decode_eq_instr_iff.mpr ⟨_, t, _, ht, hc, rfl⟩

/-- Whatever completes the entry of an instruction's opcode gives a well-formed instruction with those bytes. -/
theorem encode_of_completes_row (i : Instr) {t : Template} (h : opcodeEntry i.row.opcode = some t)
    {operands : List Byte} {j : Instr} (hc : t.Completes operands j) :
    j.wellFormed = true ∧ encode j = i.row.opcode :: operands := by
  cases i <;> dsimp only [Instr.row] at h ⊢ <;> cases h
  case bcc | bcs | beq | bne | bmi | bpl | bvc | bvs =>
    cases hc with
    | byte _ d8 => exact ⟨displacementFits_displacementOf d8, congrArg ([_, ·]) (offsetByte_displacementOf d8)⟩
  all_goals
    cases hc
    exact ⟨rfl, rfl⟩

/-- Every opcode with an entry is the opcode of some instruction. -/
theorem exists_row_of_opcodeEntry {opcode : Byte} {t : Template} (h : opcodeEntry opcode = some t) :
    ∃ i : Instr, i.row.opcode = opcode := by
  obtain ⟨i, -, hi, -⟩ := Machine.rowAt_iff.mp (congrArg (Option.map _) h)
  exact ⟨i, hi⟩

/-- Settles O3: the opcode read is the opcode of a row, and what completes that row's entry has the bytes read. -/
theorem encodeOfDecodeGivesTheBytesBack : Obligations.EncodeOfDecodeGivesTheBytesBack := fun bytes i rest h => by
  obtain ⟨_, t, operands, ht, hc, rfl⟩ := decode_eq_instr_iff.mp h
  obtain ⟨j, rfl⟩ := exists_row_of_opcodeEntry ht
  obtain ⟨wf, he⟩ := encode_of_completes_row j ht hc
  exact ⟨wf, congrArg (· ++ rest) he⟩

/-- A rejection is of an opcode without an entry. -/
theorem decode_eq_invalidOpcode_iff {opcode : Byte} {rest : List Byte} :
    decode (opcode :: rest) = .invalidOpcode opcode ↔ opcodeEntry opcode = none := by
  simp only [decode]
  split
  next he => exact iff_of_true rfl he
  all_goals simp_all only [reduceCtorEq]

/-- The bytes without an entry are the listed ones (30 R146). -/
theorem opcodeEntry_eq_none_iff : ∀ opcode : Byte, opcodeEntry opcode = none ↔ opcode ∈ Machine.undefinedOpcodes :=
  by decide

/-- An opcode byte without an entry faults after its fetch (60 R471). -/
theorem fetchInstr_invalidOpcode {s t : Machine.State} {opcode : Byte} (h : Machine.fetch s = .ok opcode t)
    (he : opcodeEntry opcode = none) : Machine.fetchInstr s = .fault (.invalidOpcode opcode) := by
  rw [Machine.fetchInstr, Machine.bind_of_ok h, he]

/-- Settles O4: rejected bytes and faulting fetches are both those without an entry. -/
theorem undefinedOpcodesRaiseInvalidOpcode : Obligations.UndefinedOpcodesRaiseInvalidOpcode :=
  ⟨rfl, by decide, fun opcode _ => decode_eq_invalidOpcode_iff.trans (opcodeEntry_eq_none_iff opcode),
    fun _ _ _ opcode hs hb hf hm => Machine.step_fetchInstr_fault hs hb
      (fetchInstr_invalidOpcode hf ((opcodeEntry_eq_none_iff opcode).mpr hm))⟩

/-- The bytes of a well-formed instruction decode to it. -/
theorem decode_of_encode_eq {i : Instr} {bytes : List Byte} (h : i.wellFormed = true) (he : encode i = bytes) :
    decode bytes = .instr i [] := by
  have roundTrip := decodeOfEncodeGivesTheInstructionBack i [] h
  rwa [List.append_nil, he] at roundTrip

/-- Settles O1: each word is the encoding of its instruction, so the round trip decodes it. -/
theorem decodedWords : Obligations.DecodedWords := by
  refine ⟨?_, ?_, ?_, ?_, ?_, ?_, ?_, ?_, ?_, ?_, ?_, ?_, ?_, ?_, ?_, ?_, ?_⟩ <;>
    exact decode_of_encode_eq (by decide) (by decide)

/-- The mode of a row fixes how many operand bytes its instructions carry. -/
theorem length_operandBytes (i : Instr) : i.operandBytes.length = i.row.mode.operandBytes := by cases i <;> rfl

/-- Settles O5: an encoding is the opcode and the operand bytes of the mode. -/
theorem instructionLengthFollowsTheMode : Obligations.InstructionLengthFollowsTheMode := by
  refine ⟨fun mode => by cases mode <;> rfl, fun i => ⟨?_, rfl, rfl⟩⟩
  rw [encode, List.length_cons, length_operandBytes, Nat.add_comm]

end Sys2Proof

/-! PROOFS. The addressing modes as arithmetic on numbers, and the pointers they read (40 R167 to R181, 20 R106). -/

namespace Sys2Proof.Machine

@[simp] theorem toNat_zeroPageAddress (d : Byte) : (zeroPageAddress d).toNat = d.toNat :=
  BitVec.toNat_setWidth_of_le (by decide)

/-- An index wraps inside the zero page (40 R172, R173). -/
theorem toNat_zeroPageAddress_add (d index : Byte) :
    (zeroPageAddress (d + index)).toNat = (d.toNat + index.toNat) % 0x100 := by
  rw [toNat_zeroPageAddress, BitVec.toNat_add]

theorem toNat_indexedAddress (a : Word) (index : Byte) :
    (indexedAddress a index).toNat = (a.toNat + index.toNat) % 0x10000 := by
  rw [indexedAddress, BitVec.toNat_add, BitVec.toNat_setWidth_of_le (by decide)]

theorem toNat_branchTarget (pc : Word) (disp : Int) :
    ((branchTarget pc disp).toNat : Int) = ((pc.toNat : Int) + disp) % 0x10000 := by
  rw [branchTarget, BitVec.toNat_add, BitVec.toNat_ofInt]
  omega

/-- An offset byte as a number: from 0x80 on it is negative (30 R142). -/
theorem displacementOf_eq (d8 : Byte) :
    displacementOf d8 = if d8.toNat < 0x80 then (d8.toNat : Int) else d8.toNat - 0x100 := by
  rw [displacementOf, BitVec.toInt_eq_toNat_cond]
  split <;> split <;> omega

/-- Settles O10: each mode resolves by its equation, and the number of its address is that of the arithmetic. -/
theorem addressingModesResolve : Obligations.AddressingModesResolve := by
  refine ⟨fun _ => ⟨rfl, rfl⟩, fun _ _ => rfl, fun d _ => ⟨_, rfl, toNat_zeroPageAddress d⟩,
    fun d s => ⟨_, rfl, toNat_zeroPageAddress_add d s.cpu.x⟩,
    fun d s => ⟨_, rfl, toNat_zeroPageAddress_add d s.cpu.y⟩, fun _ _ => rfl,
    fun w s => ⟨_, rfl, toNat_indexedAddress w s.cpu.x⟩, fun w s => ⟨_, rfl, toNat_indexedAddress w s.cpu.y⟩,
    fun d s => ⟨_, rfl, ?_⟩, fun _ => rfl, fun _ _ => rfl, fun _ _ => rfl⟩
  rw [toNat_branchTarget, displacementOf_eq]

theorem toNat_wordOfBytes (lo hi : Byte) : (wordOfBytes lo hi).toNat = lo.toNat + 0x100 * hi.toNat := by
  rw [wordOfBytes, BitVec.toNat_append, Nat.shiftLeft_eq, Nat.mul_comm, ← Nat.two_pow_add_eq_or_of_lt lo.isLt,
    Nat.add_comm]

/-- With the switch off the high byte of a pointer is at the plain successor (20 R106). -/
theorem pointerSuccessor_plain {c : Config} (h : c.pageWrapPointers = false) (a : Word) :
    pointerSuccessor c a = a + 1 := by
  rw [pointerSuccessor, h]; rfl

/-- With the switch on the successor of a zero-page address stays in the zero page. -/
theorem pointerSuccessor_wrap {c : Config} (h : c.pageWrapPointers = true) (d : Byte) :
    pointerSuccessor c (zeroPageAddress d) = zeroPageAddress (d + 1) := by
  have high : zeroPageAddress d &&& 0xFF00 = 0 := by
    rw [zeroPageAddress, BitVec.setWidth_eq_append (by decide)]
    exact (BitVec.and_append (x₁ := 0#8) (x₂ := 0xFF#8) (y₁ := d) (y₂ := 0#8)).trans
      (by rw [BitVec.zero_and, BitVec.and_zero]; rfl)
  have low : (zeroPageAddress d + 1) &&& 0x00FF = zeroPageAddress (d + 1) := by
    apply BitVec.eq_of_toNat_eq
    rw [BitVec.toNat_and, toNat_zeroPageAddress_add, BitVec.toNat_add, toNat_zeroPageAddress]
    exact (Nat.and_two_pow_sub_one_eq_mod _ 8).trans (Nat.mod_mod_of_dvd _ (by decide))
  rw [pointerSuccessor, if_pos h, high, low]
  exact BitVec.zero_or

/-- The offset in working RAM of the high byte of a zero-page pointer (20 R106). -/
def zeroPageSuccessor (c : Config) (offset : Nat) : Nat :=
  if c.pageWrapPointers then (offset + 1) % 0x100 else offset + 1

theorem toNat_pointerSuccessor_zeroPage (c : Config) (d : Byte) :
    (pointerSuccessor c (zeroPageAddress d)).toNat = zeroPageSuccessor c d.toNat := by
  unfold zeroPageSuccessor
  split
  next h => rw [pointerSuccessor_wrap h, toNat_zeroPageAddress_add]; rfl
  next h =>
    have fits : d.toNat + 1 < 0x10000 := Nat.lt_of_lt_of_le (Nat.succ_lt_succ d.isLt) (by decide)
    rw [pointerSuccessor_plain (Bool.eq_false_iff.mpr h), BitVec.toNat_add, toNat_zeroPageAddress]
    exact Nat.mod_eq_of_lt fits

theorem zeroPageSuccessor_lt (c : Config) (d : Byte) : zeroPageSuccessor c d.toNat < 0x800 := by
  have := d.isLt
  unfold zeroPageSuccessor
  split <;> omega

/-- A pointer in the zero page is two bytes of working RAM. -/
theorem readPointer_zeroPage (d : Byte) (s : State) : readPointer (zeroPageAddress d) s =
    .ok (wordOfBytes (byteAt s.wram d.toNat) (byteAt s.wram (zeroPageSuccessor s.config d.toNat))) s := by
  have lowInRam := d.isLt
  have highInRam := zeroPageSuccessor_lt s.config d
  rw [readPointer, memRead_wram (by rw [toNat_zeroPageAddress]; omega), bind_ok,
    memRead_wram (by rw [toNat_pointerSuccessor_zeroPage]; omega), bind_ok, toNat_zeroPageAddress,
    toNat_pointerSuccessor_zeroPage, Nat.mod_eq_of_lt highInRam, Nat.mod_eq_of_lt (by omega)]

/-- A pointer is two bus reads, low byte first (20 R106). -/
theorem readPointer_plain {p : Word} {s t u : State} {lo hi : Byte} (h : s.config.pageWrapPointers = false)
    (hlo : memRead p s = .ok lo t) (hhi : memRead (p + 1) t = .ok hi u) :
    readPointer p s = .ok (wordOfBytes lo hi) u := by
  obtain ⟨-, -, -, -, -, -, -, -, hc, -, -⟩ := (memRead_effects hlo).fields
  rw [readPointer, bind_of_ok hlo, pointerSuccessor_plain (hc ▸ h), bind_of_ok hhi]

/-- A pre-indexed pointer wraps inside the zero page (40 R178). -/
theorem resolve_preIndexed_wram (d : Byte) (s : State) :
    ∃ a, resolve (.preIndexedIndirect d) s = .ok (.address a) s ∧
      a.toNat = (byteAt s.wram ((d.toNat + s.cpu.x.toNat) % 0x100)).toNat +
        0x100 * (byteAt s.wram (zeroPageSuccessor s.config ((d.toNat + s.cpu.x.toNat) % 0x100))).toNat := by
  refine ⟨_, by rw [resolve_preIndexed, readPointer_zeroPage, bind_ok], ?_⟩
  rw [toNat_wordOfBytes, BitVec.toNat_add]

/-- A post-indexed address is the word at the pointer plus Y (40 R179). -/
theorem resolve_postIndexed_wram (d : Byte) (s : State) :
    ∃ a, resolve (.postIndexedIndirect d) s = .ok (.address a) s ∧
      a.toNat = ((byteAt s.wram d.toNat).toNat +
        0x100 * (byteAt s.wram (zeroPageSuccessor s.config d.toNat)).toNat + s.cpu.y.toNat) % 0x10000 := by
  refine ⟨_, by rw [resolve_postIndexed, readPointer_zeroPage, bind_ok], ?_⟩
  rw [toNat_indexedAddress, toNat_wordOfBytes]

/-- Settles O11: the pointers of the zero page by their two bytes of working RAM, the other by its two bus reads. -/
theorem indirectModesDereferencePointers : Obligations.IndirectModesDereferencePointers := by
  refine ⟨fun d s h => ⟨?_, ?_⟩, fun d s h => ⟨?_, ?_⟩, fun p s t u lo hi h hlo hhi =>
    ⟨_, ?_, toNat_wordOfBytes lo hi⟩⟩
  · simpa [zeroPageSuccessor, h] using resolve_preIndexed_wram d s
  · simpa [zeroPageSuccessor, h] using resolve_postIndexed_wram d s
  · simpa [zeroPageSuccessor, h] using resolve_preIndexed_wram d s
  · simpa [zeroPageSuccessor, h] using resolve_postIndexed_wram d s
  · rw [resolve_indirect, readPointer_plain h hlo hhi, bind_ok]

end Sys2Proof.Machine

/-! PROOFS. Fetching an instruction is fetching the bytes that decode to it (40 R165, R166, R183). -/

namespace Sys2Proof.Machine

/-- Fetches in a row, one after the other. -/
theorem fetchBytes_cons_eq_ok {n : Nat} {b : Byte} {bs : List Byte} {s t : State} :
    fetchBytes (n + 1) s = .ok (b :: bs) t ↔ ∃ u, fetch s = .ok b u ∧ fetchBytes n u = .ok bs t := by
  rw [fetchBytes, bind_eq_ok]
  constructor
  · rintro ⟨v, u, h1, h2⟩
    obtain ⟨vs, w, h3, h4⟩ := bind_eq_ok.mp h2
    cases h4
    exact ⟨u, h1, h3⟩
  · rintro ⟨u, h1, h2⟩
    exact ⟨b, u, h1, by rw [h2, bind_ok]⟩

theorem fetchBytes_one_eq_ok {b : Byte} {s t : State} : fetchBytes 1 s = .ok [b] t ↔ fetch s = .ok b t := by
  rw [fetchBytes_cons_eq_ok]
  exact ⟨fun ⟨_, h, e⟩ => by cases e; exact h, fun h => ⟨t, h, rfl⟩⟩

/-- Each fetch advances `PC` by one, modulo 2^16 (40 R165). -/
theorem fetchBytes_pc : ∀ {n : Nat} {bs : List Byte} {s t : State}, fetchBytes n s = .ok bs t →
    t.cpu.pc = s.cpu.pc + BitVec.ofNat 16 n
  | 0, _, s, _, h => by cases h; exact (BitVec.add_zero _).symm
  | n + 1, _, s, t, h => by
    obtain ⟨b, u, h1, h2⟩ := bind_eq_ok.mp h
    obtain ⟨bs, w, h3, h4⟩ := bind_eq_ok.mp h2
    cases h4
    rw [fetchBytes_pc h3, (fetch_effects h1).2, BitVec.add_assoc, Nat.add_comm, BitVec.ofNat_add]
    rfl

/-- A word is fetched as its low and then its high byte (40 R166). -/
theorem fetchWord_eq_ok {w : Word} {s t : State} :
    fetchWord s = .ok w t ↔ fetchBytes 2 s = .ok [lowByte w, highByte w] t := by
  rw [fetchBytes_cons_eq_ok, fetchWord, bind_eq_ok]
  simp only [fetchBytes_one_eq_ok]
  constructor
  · rintro ⟨lo, u, hlo, h⟩
    obtain ⟨hi, v, hhi, e⟩ := bind_eq_ok.mp h
    cases e
    rw [lowByte_wordOfBytes, highByte_wordOfBytes]
    exact ⟨u, hlo, hhi⟩
  · rintro ⟨u, hlo, hhi⟩
    exact ⟨_, u, hlo, by rw [hhi, bind_ok, Laws.RoundTrip.word_roundTrip]⟩

/-- The operand bytes that a template asks for are those that complete it. -/
theorem fetchOperands_eq_ok {template : Template} {i : Instr} {s t : State} :
    fetchOperands template s = .ok i t ↔
      ∃ operands, template.Completes operands i ∧ fetchBytes operands.length s = .ok operands t := by
  constructor
  · intro h
    cases template with
    | none => cases h; exact ⟨[], .none i, rfl⟩
    | byte build =>
      obtain ⟨d8, u, hd, e⟩ := bind_eq_ok.mp h
      cases e
      exact ⟨[d8], .byte build d8, fetchBytes_one_eq_ok.mpr hd⟩
    | word build =>
      obtain ⟨w, u, hw, e⟩ := bind_eq_ok.mp h
      cases e
      exact ⟨_, .word build w, fetchWord_eq_ok.mp hw⟩
  · rintro ⟨operands, hc, h⟩
    cases hc with
    | none => cases h; rfl
    | byte build d8 => rw [fetchOperands, fetchBytes_one_eq_ok.mp h, bind_ok]
    | word build w => rw [fetchOperands, fetchWord_eq_ok.mpr h, bind_ok]

/-- An instruction is fetched exactly when the bytes fetched decode to it (40 R183). -/
theorem fetchInstr_eq_ok {i : Instr} {s t : State} : fetchInstr s = .ok i t ↔
    ∃ bytes, decode bytes = .instr i [] ∧ fetchBytes bytes.length s = .ok bytes t := by
  simp only [decode_eq_instr_iff, List.append_nil]
  constructor
  · intro h
    obtain ⟨opcode, u, ho, h⟩ := bind_eq_ok.mp h
    split at h
    next template ht =>
      obtain ⟨operands, hc, hb⟩ := fetchOperands_eq_ok.mp h
      exact ⟨_, ⟨opcode, template, operands, ht, hc, rfl⟩, fetchBytes_cons_eq_ok.mpr ⟨u, ho, hb⟩⟩
    · cases h
  · rintro ⟨_, ⟨opcode, template, operands, ht, hc, rfl⟩, h⟩
    obtain ⟨u, ho, hb⟩ := fetchBytes_cons_eq_ok.mp h
    rw [fetchInstr, bind_of_ok ho, ht]
    exact fetchOperands_eq_ok.mpr ⟨operands, hc, hb⟩

/-- With no interrupt to service the poll does nothing (60 R483). -/
theorem handleInterrupts_noInterrupt {s : State} (h : NoInterrupt s) : handleInterrupts s = .ok () s := by
  obtain ⟨hn, hi | hi⟩ := h <;> simp [handleInterrupts, hn, hi]

/-- With no host action and no interrupt only the DMA drain runs before the fetch (51 R440). -/
theorem beforeFetch_noInterrupt {s : State} (hs : s.schedule = []) (hn : NoInterrupt s) :
    beforeFetch s = transferIfRequested s := by
  rw [beforeFetch, bind_of_ok (hostPart_empty hs)]
  cases h : transferIfRequested s with
  | fault f => rfl
  | ok v t =>
    have same : NoInterrupt t := by rw [transferIfRequested_frame h]; exact hn
    exact handleInterrupts_noInterrupt same

/-- Settles O6: the bytes fetched are those of the instruction, and nothing before the fetch acts on a quiet state. -/
theorem stepRunsTheDecodedInstruction : Obligations.StepRunsTheDecodedInstruction := by
  refine ⟨fun s s1 s2 bytes i hs hb hd hf => ?_, fun s bytes h => fetchBytes_stored bytes s h, fun s hq => ?_⟩
  · rw [step, hs, prepare, bind_of_ok hb, fetchInstr_eq_ok.mpr ⟨bytes, hd, hf⟩]
    rfl
  · obtain ⟨-, hs, hd, hn⟩ := hq
    rw [beforeFetch_noInterrupt hs hn, transferIfRequested_idle hd]

end Sys2Proof.Machine

/-! PROOFS. `PC` changes only in a fetch and in a transfer of control (40 R184). -/

namespace Sys2Proof.Machine

/-- `PC` holds `w`. -/
def PcIs (w : Word) (s : State) : Prop := s.cpu.pc = w

/-- A change of the state that leaves `PC` alone. -/
def LeavesPc (f : State → State) : Prop := ∀ s, (f s).cpu.pc = s.cpu.pc

/-- A byte of A and the result goes to A, and N and Z follow it. -/
theorem leavesPc_combineA (f : Byte → Byte) : LeavesPc fun s => (s.setA (f s.cpu.a)).setNZ (f s.cpu.a) := fun _ => rfl

section

variable {w : Word}

theorem PcIs.congr {s t : State} (p : PcIs w s) (e : t.cpu.pc = s.cpu.pc) : PcIs w t := e.trans p

theorem pcIs_ok {f : State → State} (h : LeavesPc f) : Keeps (PcIs w) fun s => .ok () (f s) :=
  keeps_ok fun s p => p.congr (h s)

/-- An operation of bus reads keeps the CPU registers. -/
theorem pcIs_of_reads {α : Type} {op : State → Result α} (h : ∀ {s v t}, op s = .ok v t → ReadEffects s t) :
    Keeps (PcIs w) op := fun _ p _ _ e => p.congr (congrArg Cpu.pc (h e).fields.1)

theorem pcIs_memWrite (a : Word) (v : Byte) : Keeps (PcIs w) (memWrite a v) := fun _ p _ _ e =>
  p.congr (congrArg Cpu.pc (memWrite_effects e).1.fields.1)

theorem pcIs_storeBack (op : Operand) (v : Byte) : Keeps (PcIs w) (storeBack op v) := by
  cases op with
  | none => exact pcIs_ok fun _ => rfl
  | value => exact keeps_pure
  | address a => exact pcIs_memWrite a v

theorem pcIs_readInstr (form : Form) {effect : Byte → State → State} (h : ∀ m, LeavesPc (effect m)) :
    Keeps (PcIs w) (readInstr form effect) :=
  keeps_bind (pcIs_of_reads operandByte_effects) fun m => pcIs_ok (h m)

theorem pcIs_storeInstr (form : Form) (source : State → Byte) : Keeps (PcIs w) (storeInstr form source) :=
  keeps_bind (pcIs_of_reads resolve_effects) fun op => keeps_param (p := source) (pcIs_storeBack op)

theorem pcIs_modifyInstr (form : Form) {result : Byte → State → Byte} {early late : Byte → State → State}
    (he : ∀ m, LeavesPc (early m)) (hl : ∀ m, LeavesPc (late m)) :
    Keeps (PcIs w) (modifyInstr form result early late) :=
  keeps_bind (pcIs_of_reads resolve_effects) fun op => keeps_bind (pcIs_of_reads load_effects) fun m s p =>
    ends_bind (pcIs_storeBack op _ _ (p.congr (he m s))) fun _ t q => ends_ok (q.congr (hl _ t))

theorem pcIs_shiftInstr (form : Form) (shift : Byte → Bool → Shifted) {late : Byte → State → State}
    (hl : ∀ m, LeavesPc (late m)) : Keeps (PcIs w) (shiftInstr form shift late) :=
  pcIs_modifyInstr form (fun _ _ => rfl) hl

theorem pcIs_push (v : Byte) : Keeps (PcIs w) (push v) := fun s p _ t e => by
  obtain ⟨u, hw, rfl, -⟩ := push_effects e
  have hu : PcIs w u := pcIs_memWrite _ _ s p _ _ hw
  exact hu

theorem pcIs_pop : Keeps (PcIs w) pop := fun s p _ t e => by
  obtain ⟨er, -⟩ := pop_effects e
  exact PcIs.congr (s := s.setSp (s.cpu.sp + 1)) p (congrArg Cpu.pc er.fields.1)

/-- A branch whose condition does not hold does nothing (44 R270). -/
theorem opOf_branch_notTaken {name : Mnemonic} (hk : kindOf name = .branch) {form : Form} {s : State}
    (h : branchCondition name s = false) : opOf name form s = .ok () s := by
  cases name
  case BCC | BCS | BEQ | BNE | BMI | BPL | BVC | BVS =>
    cases form with
    | relative disp => exact if_neg (Bool.eq_false_iff.mp h)
    | _ => rfl
  all_goals cases hk

/-- The operations that are no transfer of control and no branch leave `PC` alone. -/
theorem pcIs_opOf {name : Mnemonic} (ht : transfersControl name = false) (hb : kindOf name ≠ .branch) (form : Form) :
    Keeps (PcIs w) (opOf name form) := by
  cases name
  case LDA | LDX | LDY | ADC | SBC | CMP | CPX | CPY | AND | ORA | EOR | BIT | LAX =>
    exact pcIs_readInstr form fun _ _ => rfl
  case STA | STX | STY | SAX => exact pcIs_storeInstr form _
  case INC | DEC => exact pcIs_modifyInstr form (late := fun r s => s.setNZ r) (fun _ _ => rfl) fun _ _ => rfl
  case DCP => exact pcIs_modifyInstr form (late := fun r s => compareWith s.cpu.a r s) (fun _ _ => rfl) fun _ _ => rfl
  case ISB => exact pcIs_modifyInstr form (late := subtractWithBorrow) (fun _ _ => rfl) fun _ _ => rfl
  case ASL | LSR | ROL | ROR => exact pcIs_shiftInstr form _ (late := fun r s => s.setNZ r) fun _ _ => rfl
  case SLO => exact pcIs_shiftInstr form _ fun r => leavesPc_combineA (· ||| r)
  case SRE => exact pcIs_shiftInstr form _ fun r => leavesPc_combineA (· ^^^ r)
  case RLA => exact pcIs_shiftInstr form _ fun r => leavesPc_combineA (· &&& r)
  case RRA => exact pcIs_shiftInstr form _ (late := addWithCarry) fun _ _ => rfl
  case TAX | TAY | TXA | TYA | TSX | TXS | INX | INY | DEX | DEY | CLC | SEC | CLI | SEI | CLV | CLD | SED | NOP =>
    exact pcIs_ok fun _ => rfl
  case PHA => exact keeps_param (p := fun s => s.cpu.a) pcIs_push
  case PHP =>
    exact keeps_after (f := fun s => s.setFlag .B true) (op := fun t => push t.cpu.p t)
      (keeps_param (p := fun s => s.cpu.p) pcIs_push) fun _ p => p
  case PLA | PLP => exact keeps_bind pcIs_pop fun _ => pcIs_ok fun _ => rfl
  case JMP | JSR | RTS | RTI | BRK => cases ht
  case BCC | BCS | BEQ | BNE | BMI | BPL | BVC | BVS => exact absurd rfl hb

end

/-- An instruction that transfers no control leaves `PC` as its fetch did. -/
theorem exec_pc {i : Instr} {s t : State} (ht : transfersControl i.row.name = false)
    (hb : branchCondition i.row.name s = false) (h : exec i s = .next t) : t.cpu.pc = s.cpu.pc := by
  have ho : opOf i.row.name (formOf i) s = .ok () t := outcome_eq_next.mp (exec_eq i s ▸ h)
  by_cases hk : kindOf i.row.name = .branch
  · rw [opOf_branch_notTaken hk hb] at ho
    cases ho; rfl
  · exact pcIs_opOf ht hk (formOf i) s rfl () t ho

/-- A fetched instruction leaves `PC` past its bytes (40 R165, 30 R141). -/
theorem fetchInstr_pc {s t : State} {i : Instr} (h : fetchInstr s = .ok i t) :
    t.cpu.pc = s.cpu.pc + BitVec.ofNat 16 i.length := by
  obtain ⟨bytes, hd, hf⟩ := fetchInstr_eq_ok.mp h
  have encoded : encode i = bytes := by simpa using (encodeOfDecodeGivesTheBytesBack bytes i [] hd).2
  obtain ⟨he, hl, -⟩ := instructionLengthFollowsTheMode.2 i
  rw [fetchBytes_pc hf, ← encoded, he, hl]

/-- Settles O7: of the parts of such a step only the fetch moves `PC`. -/
theorem programCounterLaw : Obligations.ProgramCounterLaw := fun s t u i hs hn hp ht hb h => by
  obtain ⟨-, s1, j, s2, s3, h1, h2, h3, h4⟩ := step_eq_next.mp h
  rw [prepare, bind_of_ok h1, h2] at hp
  cases hp
  rw [beforeFetch_noInterrupt hs hn] at h1
  calc u.cpu.pc
    _ = s3.cpu.pc := by rw [ppuSteps_effects _ h4]
    _ = t.cpu.pc := exec_pc ht hb h3
    _ = s1.cpu.pc + BitVec.ofNat 16 i.length := fetchInstr_pc h2
    _ = s.cpu.pc + BitVec.ofNat 16 i.length := by rw [transferIfRequested_frame h1]

end Sys2Proof.Machine

/-! PROOFS. Loads, stores and transfers: one rule for each shape of access (41 R190). -/

namespace Sys2Proof.Machine

/-- A mnemonic that reads its operand on every form (40 R181). -/
theorem readsThen_of_opOf {name : Mnemonic} {effect : Byte → State → State}
    (h : ∀ form, opOf name form = readInstr form effect) : ReadsThen name effect := by
  intro i s hn
  have run : exec i s = (readInstr (formOf i) effect s).outcome := by rw [exec_of_name hn, h]
  have done : ∀ m t, operandByte (formOf i) s = .ok m t → exec i s = .next (effect m t) := fun m t hm => by
    rw [run, readInstr_eq hm, outcome_ok]
  refine ⟨fun hc => ?_, fun m t hm => ⟨operandByte_effects hm, done m t hm⟩, fun f hf => ?_⟩
  · obtain ⟨m, t, hm⟩ := operandByte_connected (formOf i) hc
    exact ⟨m, t, hm, done m t hm⟩
  · rw [run, readInstr, bind_of_fault hf, outcome_fault]

/-- A mnemonic that stores a byte of the CPU registers at an address on every row (40 R181). -/
theorem storesByte_of_opOf {name : Mnemonic} {source : Cpu → Byte} (ha : operandIsAddress name = true)
    (h : ∀ form, opOf name form = storeInstr form fun s => source s.cpu) : StoresByte name fun s => source s.cpu := by
  intro i s hn
  have done : ∀ a t u, resolve (formOf i) s = .ok (.address a) t → memWrite a (source s.cpu) t = .ok () u →
      exec i s = .next u := fun a t u hr hw => by
    rw [exec_of_name hn, h, storeInstr_eq hr, (resolve_effects hr).fields.1, hw, outcome_ok]
  refine ⟨fun hc => ?_, fun a t u hr hw => ⟨done a t u hr hw, resolve_effects hr, (memWrite_effects hw).1, ?_⟩⟩
  · obtain ⟨op, t, hr⟩ := resolve_connected (formOf i) hc
    obtain ⟨a, rfl⟩ := resolve_address hr (formOf_isAddress (hn ▸ ha))
    obtain ⟨u, hw⟩ := memWrite_connected a (source s.cpu) ((resolve_effects hr).connected hc)
    exact ⟨a, t, u, hr, hw, done a t u hr hw⟩
  · rw [(memWrite_effects hw).1.fields.1, (resolve_effects hr).fields.1]

/-- Settles O12: the rows by the table check, the effect by the rule of a reading mnemonic. -/
theorem loadsSetTheirRegisterAndNZ : Obligations.LoadsSetTheirRegisterAndNZ :=
  ⟨hasForms_of_check (by decide), hasForms_of_check (by decide), hasForms_of_check (by decide),
    readsThen_of_opOf fun _ => rfl, readsThen_of_opOf fun _ => rfl, readsThen_of_opOf fun _ => rfl⟩

/-- Settles O13: the rows by the table check, the effect by the rule of a storing mnemonic. -/
theorem storesWriteTheirRegister : Obligations.StoresWriteTheirRegister :=
  ⟨hasForms_of_check (by decide), hasForms_of_check (by decide), hasForms_of_check (by decide),
    storesByte_of_opOf (source := Cpu.a) rfl fun _ => rfl, storesByte_of_opOf (source := Cpu.x) rfl fun _ => rfl,
    storesByte_of_opOf (source := Cpu.y) rfl fun _ => rfl⟩

/-- Settles O14: in the window both accesses are of the byte at the address modulo 0x800 (20 R83). -/
theorem storeThenReadInWorkingRam : Obligations.StoreThenReadInWorkingRam := fun a b v s ha hb => by
  refine ⟨_, memWrite_wram ha v s, rfl, ?_⟩
  rw [memRead_wram hb, byteAt_setByte]
  simp only [eq_comm]

/-- Settles O15: a transfer has no operand, so its next state is computed. -/
theorem transfersCopyAndSetNZ : Obligations.TransfersCopyAndSetNZ :=
  ⟨hasForms_of_check (by decide), hasForms_of_check (by decide), hasForms_of_check (by decide),
    hasForms_of_check (by decide), fun _ => ⟨rfl, rfl, rfl, rfl⟩⟩

end Sys2Proof.Machine

/-! PROOFS. Where a fault can come from: each part of a step attaches and removes nothing, and faults only where a
resource is absent or with a fault of its own (41 R190, 60 R473 to R478). -/

namespace Sys2Proof.Machine

/-- The same resources are attached. -/
def SameResources (s t : State) : Prop := t.config.prgRom = s.config.prgRom ∧ t.chr.isSome = s.chr.isSome

/-- The fault names a resource that is absent (60 R474). -/
def Missing (s : State) (f : Fault) : Prop :=
  (f = .resourceNotConnected .programRom ∧ s.config.prgRom = none) ∨
    (f = .resourceNotConnected .characterMemory ∧ s.chr = none)

/-- The result of an operation on `s` has the resources of `s`, or is a fault that names one of them as absent or is
one of `own`. -/
inductive Result.FaultsWithin {α : Type} (own : Fault → Prop) (s : State) : Result α → Prop
  | ok {v : α} {t : State} (h : SameResources s t) : FaultsWithin own s (.ok v t)
  | missing {f : Fault} (h : Missing s f) : FaultsWithin own s (.fault f)
  | own {f : Fault} (h : own f) : FaultsWithin own s (.fault f)

theorem SameResources.refl (s : State) : SameResources s s := ⟨rfl, rfl⟩

theorem SameResources.trans {s t u : State} (h : SameResources s t) (k : SameResources t u) : SameResources s u :=
  ⟨k.1.trans h.1, k.2.trans h.2⟩

theorem SameResources.missing {s t : State} (h : SameResources s t) {f : Fault} (m : Missing t f) : Missing s f := by
  obtain ⟨hr, hc⟩ := h
  refine m.imp (fun ⟨e, n⟩ => ⟨e, hr ▸ n⟩) fun ⟨e, n⟩ => ⟨e, ?_⟩
  exact Option.not_isSome_iff_eq_none.mp (by rw [← hc, n]; decide)

theorem ReadEffects.sameResources {s t : State} (h : ReadEffects s t) : SameResources s t := by
  rw [h.1]; exact .refl s

theorem RegisterEffect.sameResources {f : State → State} (h : RegisterEffect f) (s : State) :
    SameResources s (f s) := by
  rw [h.cpuOnly s]; exact .refl s

section

variable {own : Fault → Prop} {α β : Type}

theorem faultsWithin_pure {v : α} {s : State} : (Result.ok v s).FaultsWithin own s := .ok (.refl s)

/-- An operation after a change of the state that attaches and removes nothing: a register write, for one, where that
is so by definition. -/
theorem Result.FaultsWithin.after {s t : State} {r : Result α} (k : r.FaultsWithin own t)
    (h : SameResources s t := by exact ⟨rfl, rfl⟩) : r.FaultsWithin own s := by
  cases k with
  | ok k => exact .ok (h.trans k)
  | missing k => exact .missing (h.missing k)
  | own k => exact .own k

theorem faultsWithin_bind {s : State} {r : Result α} {k : α → State → Result β} (h : r.FaultsWithin own s)
    (hk : ∀ v t, (k v t).FaultsWithin own t) : (r.bind k).FaultsWithin own s := by
  cases h with
  | ok h => exact (hk _ _).after h
  | missing h => exact .missing h
  | own h => exact .own h

theorem Result.FaultsWithin.mono {own' : Fault → Prop} {s : State} {r : Result α} (h : r.FaultsWithin own s)
    (hm : ∀ f, own f → own' f) : r.FaultsWithin own' s := by
  cases h with
  | ok h => exact .ok h
  | missing h => exact .missing h
  | own h => exact .own (hm _ h)

/-- What a fault of such a result is. -/
theorem Result.FaultsWithin.cause {s : State} {f : Fault} (h : (Result.fault f : Result α).FaultsWithin own s) :
    Missing s f ∨ own f := by
  cases h with
  | missing h => exact .inl h
  | own h => exact .inr h

/-- From the laws of an access: what it leaves where it ends well, and its only faults. -/
theorem faultsWithin_access {s : State} {r : Result α} (ok : ∀ {v t}, r = .ok v t → SameResources s t)
    (fault : ∀ {f}, r = .fault f → Missing s f) : r.FaultsWithin own s := by
  cases r with
  | ok v t => exact .ok (ok rfl)
  | fault f => exact .missing (fault rfl)

theorem faultsWithin_memRead (a : Word) (s : State) : (memRead a s).FaultsWithin own s :=
  faultsWithin_access (fun h => (memRead_effects h).sameResources) memRead_fault

theorem faultsWithin_memWrite (a : Word) (v : Byte) (s : State) : (memWrite a v s).FaultsWithin own s :=
  faultsWithin_access (fun h => by
    obtain ⟨w, hc⟩ := memWrite_effects h
    obtain ⟨-, -, -, hg, -⟩ := w.fields
    exact ⟨congrArg Config.prgRom hg, hc⟩) memWrite_fault

theorem faultsWithin_ppuBusRead (a : Word) (s : State) : (ppuBusRead a s).FaultsWithin own s :=
  faultsWithin_access (fun h => by rw [ppuBusRead_state h]; exact .refl s) fun h => .inr (ppuBusRead_fault h)

/-! Operands (40 R167, R181) and the operations over them. -/

theorem faultsWithin_readWord (a : Word) (s : State) : (readWord a s).FaultsWithin own s :=
  faultsWithin_bind (faultsWithin_memRead a s) fun _ _ =>
    faultsWithin_bind (faultsWithin_memRead _ _) fun _ _ => faultsWithin_pure

theorem faultsWithin_readPointer (a : Word) (s : State) : (readPointer a s).FaultsWithin own s :=
  faultsWithin_bind (faultsWithin_memRead a s) fun _ _ =>
    faultsWithin_bind (faultsWithin_memRead _ _) fun _ _ => faultsWithin_pure

theorem faultsWithin_resolve (form : Form) (s : State) : (resolve form s).FaultsWithin own s := by
  cases form with
  | indirectAbsolute | preIndexedIndirect | postIndexedIndirect =>
    exact faultsWithin_bind (faultsWithin_readPointer _ s) fun _ _ => faultsWithin_pure
  | _ => exact faultsWithin_pure

theorem faultsWithin_load (op : Operand) (s : State) : (load op s).FaultsWithin own s := by
  cases op with
  | address a => exact faultsWithin_memRead a s
  | _ => exact faultsWithin_pure

theorem faultsWithin_storeBack (op : Operand) (v : Byte) (s : State) : (storeBack op v s).FaultsWithin own s := by
  cases op with
  | none => exact .ok (.refl s)
  | value => exact faultsWithin_pure
  | address a => exact faultsWithin_memWrite a v s

theorem faultsWithin_readInstr (form : Form) {effect : Byte → State → State} (h : ∀ m, RegisterEffect (effect m))
    (s : State) : (readInstr form effect s).FaultsWithin own s :=
  faultsWithin_bind (faultsWithin_bind (faultsWithin_resolve form s) fun op t => faultsWithin_load op t)
    fun m t => .ok ((h m).sameResources t)

theorem faultsWithin_storeInstr (form : Form) (source : State → Byte) (s : State) :
    (storeInstr form source s).FaultsWithin own s :=
  faultsWithin_bind (faultsWithin_resolve form s) fun op t => faultsWithin_storeBack op _ t

theorem faultsWithin_modifyInstr (form : Form) {result : Byte → State → Byte} {early late : Byte → State → State}
    (he : ∀ m, RegisterEffect (early m)) (hl : ∀ m, RegisterEffect (late m)) (s : State) :
    (modifyInstr form result early late s).FaultsWithin own s :=
  faultsWithin_bind (faultsWithin_resolve form s) fun op t => faultsWithin_bind (faultsWithin_load op t) fun m u =>
    faultsWithin_bind ((faultsWithin_storeBack op _ _).after ((he m).sameResources u)) fun _ w =>
      .ok ((hl _).sameResources w)

theorem faultsWithin_jumpInstr (form : Form) (s : State) : (jumpInstr form s).FaultsWithin own s :=
  faultsWithin_bind (faultsWithin_resolve form s) fun op t => by
    cases op with
    | address => exact .ok (.refl t)
    | _ => exact faultsWithin_pure

theorem faultsWithin_branchInstr (disp : Int) (taken : State → Bool) (s : State) :
    (branchInstr disp taken s).FaultsWithin own s := by
  unfold branchInstr
  split
  · exact faultsWithin_jumpInstr _ s
  · exact faultsWithin_pure

/-! The stack (10 R34 to R37), with its own fault. -/

section

variable (overflow : ∀ v, own (.stackPointerOverflow v))
include overflow

theorem faultsWithin_push (v : Byte) (s : State) : (push v s).FaultsWithin own s :=
  faultsWithin_bind (faultsWithin_memWrite _ v s) fun _ t => by
    split
    · exact .own (overflow _)
    · exact .ok (.refl t)

theorem faultsWithin_pushWord (w : Word) (s : State) : (pushWord w s).FaultsWithin own s :=
  faultsWithin_bind (faultsWithin_push overflow _ s) fun _ t => faultsWithin_push overflow _ t

theorem faultsWithin_pushFrame (s : State) : (pushFrame s).FaultsWithin own s :=
  faultsWithin_bind (faultsWithin_pushWord overflow _ s) fun _ t => faultsWithin_push overflow _ t

theorem faultsWithin_takeInterrupt (vector : Word) (s : State) : (takeInterrupt vector s).FaultsWithin own s :=
  faultsWithin_bind ((faultsWithin_pushFrame overflow _).after) fun _ t =>
    faultsWithin_bind ((faultsWithin_readWord vector _).after) fun _ u => .ok (.refl u)

theorem faultsWithin_brk (s : State) : (opBrk s).FaultsWithin own s :=
  faultsWithin_bind ((faultsWithin_pushFrame overflow _).after) fun _ t => by
    split
    · exact .ok (.refl t)
    · exact faultsWithin_bind (faultsWithin_readWord irqVector t) fun _ u => .ok (.refl u)

end

section

variable (underflow : ∀ v, own (.stackPointerUnderflow v))
include underflow

theorem faultsWithin_pop (s : State) : (pop s).FaultsWithin own s := by
  unfold pop
  split
  · exact .own (underflow _)
  · exact (faultsWithin_memRead _ _).after

theorem faultsWithin_popWord (s : State) : (popWord s).FaultsWithin own s :=
  faultsWithin_bind (faultsWithin_pop underflow s) fun _ t =>
    faultsWithin_bind (faultsWithin_pop underflow t) fun _ _ => faultsWithin_pure

theorem faultsWithin_returnFromInterrupt (s : State) : (returnFromInterrupt s).FaultsWithin own s :=
  faultsWithin_bind (faultsWithin_pop underflow s) fun _ t =>
    faultsWithin_bind ((faultsWithin_popWord underflow _).after) fun _ u => .ok (.refl u)

end

end

/-- The stack pointer faults that are a mnemonic's own: those of the operations that push or pop (60 R475, R476). -/
def StackFault (name : Mnemonic) (f : Fault) : Prop :=
  (∃ v, f = .stackPointerOverflow v ∧ name ∈ [Mnemonic.PHA, .PHP, .JSR, .BRK]) ∨
    (∃ v, f = .stackPointerUnderflow v ∧ name ∈ [Mnemonic.PLA, .PLP, .RTS, .RTI])

theorem stackFault_overflow (name : Mnemonic) (h : name ∈ [Mnemonic.PHA, .PHP, .JSR, .BRK]) (v : Word) :
    StackFault name (.stackPointerOverflow v) := .inl ⟨v, rfl, h⟩

theorem stackFault_underflow (name : Mnemonic) (h : name ∈ [Mnemonic.PLA, .PLP, .RTS, .RTI]) (v : Word) :
    StackFault name (.stackPointerUnderflow v) := .inr ⟨v, rfl, h⟩

theorem faultsWithin_stackOp {name : Mnemonic} (h : kindOf name = .stack) (form : Form) (s : State) :
    (opOf name form s).FaultsWithin (StackFault name) s := by
  cases name
  case TXS => exact .ok (.refl s)
  case JSR =>
    cases form with
    | absolute a =>
      exact faultsWithin_bind (faultsWithin_pushWord (stackFault_overflow _ (by decide)) _ s) fun _ t => .ok (.refl t)
    | _ => exact faultsWithin_pure
  case RTS =>
    exact faultsWithin_bind (faultsWithin_popWord (stackFault_underflow _ (by decide)) s) fun _ t => .ok (.refl t)
  case PHA => exact faultsWithin_push (stackFault_overflow _ (by decide)) _ s
  case PHP => exact (faultsWithin_push (stackFault_overflow _ (by decide)) _ _).after
  case PLA | PLP =>
    exact faultsWithin_bind (faultsWithin_pop (stackFault_underflow _ (by decide)) s) fun _ t => .ok (.refl t)
  case BRK => exact faultsWithin_brk (stackFault_overflow _ (by decide)) s
  case RTI => exact faultsWithin_returnFromInterrupt (stackFault_underflow _ (by decide)) s
  all_goals cases h

/-- What an instruction can fault with: a resource that is absent, or its own stack pointer fault. -/
theorem faultsWithin_opOf (name : Mnemonic) (form : Form) (s : State) :
    (opOf name form s).FaultsWithin (StackFault name) s := by
  cases h : kindOf name with
  | read => obtain ⟨effect, he, e⟩ := opOf_read h; rw [e]; exact faultsWithin_readInstr form he s
  | store => obtain ⟨source, e⟩ := opOf_store h; rw [e]; exact faultsWithin_storeInstr form source s
  | modify => obtain ⟨_, _, _, he, hl, e⟩ := opOf_modify h; rw [e]; exact faultsWithin_modifyInstr form he hl s
  | jump => cases name <;> first | exact faultsWithin_jumpInstr form s | cases h
  | branch =>
    obtain ⟨disp, taken, e⟩ | e := opOf_branch h form <;> rw [e]
    · exact faultsWithin_branchInstr disp taken s
    · exact faultsWithin_pure
  | registers => obtain ⟨f, hf, e⟩ := opOf_registers h; rw [e]; exact .ok (hf.sameResources s)
  | stack => exact faultsWithin_stackOp h form s

/-- The faults of a step that name no resource (60 R471, R475, R476, R478). -/
def StepFault : Fault → Prop
  | .invalidOpcode _ | .stackPointerOverflow _ | .stackPointerUnderflow _ | .dmaSourceOutOfRange _ => True
  | .invalidBusAddress _ | .resourceNotConnected _ => False

theorem StackFault.stepFault {name : Mnemonic} {f : Fault} (h : StackFault name f) : StepFault f := by
  obtain ⟨v, rfl, -⟩ | ⟨v, rfl, -⟩ := h <;> trivial

/-! The parts of a step before the instruction (51 R440). -/

theorem faultsWithin_fetch (s : State) : (fetch s).FaultsWithin StepFault s :=
  faultsWithin_bind (faultsWithin_memRead _ s) fun _ t => .ok (.refl t)

theorem faultsWithin_fetchWord (s : State) : (fetchWord s).FaultsWithin StepFault s :=
  faultsWithin_bind (faultsWithin_fetch s) fun _ t =>
    faultsWithin_bind (faultsWithin_fetch t) fun _ _ => faultsWithin_pure

theorem faultsWithin_fetchInstr (s : State) : (fetchInstr s).FaultsWithin StepFault s :=
  faultsWithin_bind (faultsWithin_fetch s) fun opcode t => by
    cases opcodeEntry opcode with
    | none => exact .own trivial
    | some template =>
      cases template with
      | none => exact faultsWithin_pure
      | byte => exact faultsWithin_bind (faultsWithin_fetch t) fun _ _ => faultsWithin_pure
      | word => exact faultsWithin_bind (faultsWithin_fetchWord t) fun _ _ => faultsWithin_pure

theorem faultsWithin_cpuReset (s : State) : (cpuReset s).FaultsWithin StepFault s :=
  faultsWithin_bind ((faultsWithin_readWord resetVector _).after) fun _ t => .ok (.refl t)

theorem faultsWithin_hostActions : ∀ (hs : List HostAction) (s : State), (hostActions hs s).FaultsWithin StepFault s
  | [], _ => faultsWithin_pure
  | .irqAssert :: hs, s => (faultsWithin_hostActions hs _).after
  | .cpuReset :: hs, s => faultsWithin_bind (faultsWithin_cpuReset s) fun _ => faultsWithin_hostActions hs

theorem faultsWithin_hostPart (s : State) : (hostPart s).FaultsWithin StepFault s := by
  unfold hostPart
  split
  · exact faultsWithin_pure
  · exact (faultsWithin_hostActions _ _).after

theorem faultsWithin_transferIfRequested (s : State) : (transferIfRequested s).FaultsWithin StepFault s := by
  cases h : transferIfRequested s with
  | ok v t => rw [transferIfRequested_frame h]; exact .ok (.refl s)
  | fault f =>
    unfold transferIfRequested at h
    split at h
    · split at h <;> cases h
      exact .own trivial
    · cases h

theorem faultsWithin_handleInterrupts (s : State) : (handleInterrupts s).FaultsWithin StepFault s := by
  have take : ∀ vector t, (takeInterrupt vector t).FaultsWithin StepFault t :=
    faultsWithin_takeInterrupt fun _ => trivial
  unfold handleInterrupts
  split
  · exact (take nmiVector _).after
  · split
    · exact (take irqVector _).after
    · exact faultsWithin_pure

theorem faultsWithin_prepare (s : State) : (prepare s).FaultsWithin StepFault s :=
  faultsWithin_bind
    (faultsWithin_bind (faultsWithin_hostPart s) fun _ t =>
      faultsWithin_bind (faultsWithin_transferIfRequested t) fun _ => faultsWithin_handleInterrupts)
    fun _ => faultsWithin_fetchInstr

/-! The PPU steps after the instruction (51 R441): drawing reads the PPU bus. -/

section

variable {own : Fault → Prop}

theorem faultsWithin_forEach {f : Nat → State → Result Unit} (h : ∀ k s, (f k s).FaultsWithin own s) :
    ∀ (ks : List Nat) (s : State), (forEach f ks s).FaultsWithin own s
  | [], _ => faultsWithin_pure
  | k :: ks, s => faultsWithin_bind (h k s) fun _ => faultsWithin_forEach h ks

theorem faultsWithin_colour (index : Nat) (s : State) : (colour index s).FaultsWithin own s :=
  faultsWithin_bind (faultsWithin_ppuBusRead _ s) fun _ _ => faultsWithin_pure

theorem faultsWithin_patternRow (bank : Bool) (tile : Byte) (row : Nat) (s : State) :
    (patternRow bank tile row s).FaultsWithin own s :=
  faultsWithin_bind (faultsWithin_ppuBusRead _ s) fun _ t =>
    faultsWithin_bind (faultsWithin_ppuBusRead _ t) fun _ _ => faultsWithin_pure

theorem faultsWithin_attributeSelector (b : BgPlace) (s : State) : (attributeSelector b s).FaultsWithin own s :=
  faultsWithin_bind (faultsWithin_ppuBusRead _ s) fun _ _ => faultsWithin_pure

/-- One background pixel (50 R355, R362). -/
theorem faultsWithin_groupPixel (index y x : Nat) (shows : Bool) (s : State) :
    ((colour index s).bind fun c t => .ok () (setOpaque y x shows (setPixel y x c t))).FaultsWithin own s :=
  faultsWithin_bind (faultsWithin_colour index s) fun _ _ => .ok ⟨rfl, rfl⟩

theorem faultsWithin_backgroundGroup (x y : Nat) (s : State) : (drawBackgroundGroup x y s).FaultsWithin own s := by
  unfold drawBackgroundGroup
  split
  · exact faultsWithin_bind (faultsWithin_ppuBusRead _ s) fun tile t =>
      faultsWithin_bind (faultsWithin_attributeSelector _ t) fun sel t =>
        faultsWithin_bind (faultsWithin_patternRow _ tile _ t) fun row =>
          faultsWithin_forEach (fun i => faultsWithin_groupPixel _ y (x + i) _) _
  · exact faultsWithin_forEach (fun i => faultsWithin_groupPixel 0 y (x + i) false) _ s

theorem faultsWithin_spritePixel (rec : SpriteRecord) (row : PlaneRow) (py c : Nat) (s : State) :
    (drawSpritePixel rec row py c s).FaultsWithin own s := by
  unfold drawSpritePixel
  generalize pixelValue row (if rec.attr.getLsbD 6 then 7 - c else c) = pix
  dsimp only
  split
  · exact faultsWithin_pure
  split
  · exact faultsWithin_pure
  split
  · exact faultsWithin_pure
  · exact faultsWithin_bind (faultsWithin_colour _ s) fun _ _ => .ok ⟨rfl, rfl⟩

theorem faultsWithin_spriteRow (rec : SpriteRecord) (r : Nat) (s : State) :
    (drawSpriteRow rec r s).FaultsWithin own s := by
  unfold drawSpriteRow
  dsimp only
  split
  · exact faultsWithin_pure
  · exact faultsWithin_bind (faultsWithin_patternRow _ _ _ s) fun row =>
      faultsWithin_forEach (faultsWithin_spritePixel rec row _) _

theorem faultsWithin_sprites (s : State) : (drawSprites s).FaultsWithin own s := by
  unfold drawSprites
  split
  · exact faultsWithin_forEach (fun _ t => faultsWithin_forEach (faultsWithin_spriteRow _) _ t) _ s
  · exact faultsWithin_pure

theorem faultsWithin_advance (s : State) : (advance s).FaultsWithin own s := by
  unfold advance
  split
  · exact .ok (.refl s)
  split
  · refine .ok ?_
    dsimp only
    split <;> exact .refl s
  · exact faultsWithin_bind (faultsWithin_sprites _).after fun _ t => .ok (.refl t)

theorem faultsWithin_backgroundPart (s : State) : (backgroundPart s).FaultsWithin own s := by
  unfold backgroundPart
  split
  · exact faultsWithin_backgroundGroup _ _ s
  · exact faultsWithin_pure

theorem faultsWithin_ppuStep (s : State) : (ppuStep s).FaultsWithin own s :=
  faultsWithin_bind (faultsWithin_backgroundPart s) fun _ t =>
    (faultsWithin_advance _).after (by rw [spriteZeroTest_eq]; exact ⟨rfl, rfl⟩)

theorem faultsWithin_ppuSteps : ∀ (n : Nat) (s : State), (ppuSteps n s).FaultsWithin own s
  | 0, _ => faultsWithin_pure
  | n + 1, s => faultsWithin_bind (faultsWithin_ppuStep s) fun _ => faultsWithin_ppuSteps n

end

/-- A running machine's step is one operation: fetch, instruction, PPU. -/
theorem step_eq_outcome {s : State} (h : s.fault = none) : step s = ((prepare s).bind fun i t =>
    (opOf i.row.name (formOf i) t).bind fun _ u => ppuPart i u).outcome := by
  simp only [step, h]
  cases prepare s with
  | fault f => rfl
  | ok i t =>
    simp only [bind_ok, exec_eq]
    cases opOf i.row.name (formOf i) t <;> rfl

/-- What a step can fault with: a resource that is absent, or a fault that names none. -/
theorem step_fault {s : State} {f : Fault} (hs : s.fault = none) (h : step s = .fault f) :
    Missing s f ∨ StepFault f := by
  have parts : ((prepare s).bind fun i t =>
      (opOf i.row.name (formOf i) t).bind fun _ u => ppuPart i u).FaultsWithin StepFault s :=
    faultsWithin_bind (faultsWithin_prepare s) fun i t =>
      faultsWithin_bind ((faultsWithin_opOf _ _ t).mono fun _ => StackFault.stepFault) fun _ u =>
        faultsWithin_ppuSteps _ u
  rw [step_eq_outcome hs, outcome_eq_fault] at h
  rw [h] at parts
  exact parts.cause

theorem exec_fault {i : Instr} {s : State} {f : Fault} (h : exec i s = .fault f) :
    Missing s f ∨ StackFault i.row.name f := by
  have op := faultsWithin_opOf i.row.name (formOf i) s
  rw [exec_eq_fault.mp h] at op
  exact op.cause

theorem not_missing_invalidBusAddress (s : State) (n : Nat) : ¬ Missing s (.invalidBusAddress n) := by
  rintro (⟨h, -⟩ | ⟨h, -⟩) <;> cases h

/-- A number of 16 bits is an address, and the bus functions are its accesses (20 R81, R82). -/
theorem busRead_address {a : Nat} (h : a < 0x10000) (s : State) : busRead a s = memRead (BitVec.ofNat 16 a) s := by
  rw [memRead, BitVec.toNat_ofNat, Nat.mod_eq_of_lt h]

theorem busWrite_address {a : Nat} (h : a < 0x10000) (v : Byte) (s : State) :
    busWrite a v s = memWrite (BitVec.ofNat 16 a) v s := by
  rw [memWrite, BitVec.toNat_ofNat, Nat.mod_eq_of_lt h]

/-- A number above 0xFFFF is no address (20 R92). -/
theorem busRead_outside {a : Nat} (h : 0x10000 ≤ a) (s : State) : busRead a s = .fault (.invalidBusAddress a) := by
  unfold busRead
  iterate 7 rw [if_neg (by omega)]

theorem busWrite_outside {a : Nat} (h : 0x10000 ≤ a) (v : Byte) (s : State) :
    busWrite a v s = .fault (.invalidBusAddress a) := by
  unfold busWrite
  iterate 7 rw [if_neg (by omega)]

theorem busRead_invalidAddress_iff {a n : Nat} {s : State} :
    busRead a s = .fault (.invalidBusAddress n) ↔ 0x10000 ≤ a ∧ n = a := by
  by_cases ha : 0x10000 ≤ a
  · simp [busRead_outside ha, ha, eq_comm]
  · rw [busRead_address (Nat.lt_of_not_le ha)]
    exact iff_of_false (fun h => not_missing_invalidBusAddress s n (memRead_fault h)) fun h => ha h.1

theorem busWrite_invalidAddress_iff {a n : Nat} {v : Byte} {s : State} :
    busWrite a v s = .fault (.invalidBusAddress n) ↔ 0x10000 ≤ a ∧ n = a := by
  by_cases ha : 0x10000 ≤ a
  · simp [busWrite_outside ha, ha, eq_comm]
  · rw [busWrite_address (Nat.lt_of_not_le ha)]
    exact iff_of_false (fun h => not_missing_invalidBusAddress s n (memWrite_fault h)) fun h => ha h.1

/-- Settles O37: the faults of the accesses are their laws, those of an operation and of a step are those of its
parts, and no part has InvalidBusAddress among its own. -/
theorem instructionFaultsHaveACause : Obligations.InstructionFaultsHaveACause :=
  ⟨fun i s => ⟨exec_ne_refused i s, fun _ h => or_assoc.mp (exec_fault h)⟩,
    fun _ _ _ _ h => h.elim memRead_fault memWrite_fault, fun _ _ _ _ h => h.elim ppuBusRead_fault ppuBusWrite_fault,
    fun _ _ _ _ => ⟨busRead_invalidAddress_iff, busWrite_invalidAddress_iff⟩,
    fun s n hs h => (step_fault hs h).elim (not_missing_invalidBusAddress s n) id⟩

end Sys2Proof.Machine

/-! PROOFS. Sums and differences of bytes: the flags as facts about numbers (42 R220, R221). -/

namespace Sys2Proof.Machine

/-- The sign test of the V formula, on the sign bits. -/
theorem xor_and_sign_eq_zero (x y : Byte) : (x ^^^ y) &&& 0x80 = 0 ↔ x.msb = y.msb := by
  have sign : (0x80 : Byte) = BitVec.twoPow 8 7 := rfl
  have bit : (x ^^^ y).getLsbD 7 = (x.msb ^^ y.msb) := by
    rw [BitVec.getLsbD_xor, BitVec.msb_eq_getLsbD_last, BitVec.msb_eq_getLsbD_last]
  rw [sign, BitVec.and_twoPow, bit]
  cases x.msb <;> cases y.msb <;> decide

/-- V after ADC, as 42 R220 writes it. -/
theorem adcOverflow_eq_decide (a m r : Byte) :
    adcOverflow a m r = decide ((a ^^^ m) &&& 0x80 = 0 ∧ (a ^^^ r) &&& 0x80 ≠ 0) := by
  rw [Bool.decide_and, decide_not]; rfl

/-- V after SBC, as 42 R221 writes it. -/
theorem sbcOverflow_eq_decide (a m r : Byte) :
    sbcOverflow a m r = decide ((a ^^^ m) &&& 0x80 ≠ 0 ∧ (a ^^^ r) &&& 0x80 ≠ 0) := by
  rw [Bool.decide_and, decide_not, decide_not]; rfl

/-- V after ADC, on the sign bits. -/
theorem adcOverflow_eq (a m r : Byte) : adcOverflow a m r = decide (a.msb = m.msb ∧ a.msb ≠ r.msb) := by
  rw [adcOverflow_eq_decide]
  simp only [ne_eq, xor_and_sign_eq_zero]

/-- V after SBC, on the sign bits. -/
theorem sbcOverflow_eq (a m r : Byte) : sbcOverflow a m r = decide (a.msb ≠ m.msb ∧ a.msb ≠ r.msb) := by
  rw [sbcOverflow_eq_decide]
  simp only [ne_eq, xor_and_sign_eq_zero]

theorem xor_FF (m : Byte) : m ^^^ 0xFF = ~~~m := BitVec.xor_allOnes

theorem toNat_xor_FF (m : Byte) : (m ^^^ 0xFF).toNat = 0xFF - m.toNat := by
  rw [xor_FF, BitVec.toNat_not]

/-- The complement of a byte as a signed number. -/
theorem toInt_xor_FF (m : Byte) : (m ^^^ 0xFF).toInt = -m.toInt - 1 := by
  have := m.isLt
  rw [BitVec.toInt_eq_toNat_cond, BitVec.toInt_eq_toNat_cond, toNat_xor_FF]
  split <;> split <;> omega

/-- A difference with borrow is the sum with the complement, less 256 (42 R221). -/
theorem sbcDifference_eq (a m : Byte) (c : Nat) : sbcDifference a m c = (adcSum a (m ^^^ 0xFF) c : Int) - 0x100 := by
  have := m.isLt
  rw [sbcDifference, adcSum, toNat_xor_FF]
  omega

theorem ofInt_sub_256 (n : Nat) : BitVec.ofInt 8 ((n : Int) - 0x100) = BitVec.ofNat 8 n := by
  apply BitVec.eq_of_toNat_eq
  rw [BitVec.toNat_ofInt, BitVec.toNat_ofNat]
  omega

theorem sbcOverflow_eq_adcOverflow (a m r : Byte) : sbcOverflow a m r = adcOverflow a (m ^^^ 0xFF) r := by
  rw [sbcOverflow_eq, adcOverflow_eq, xor_FF, BitVec.msb_not]
  cases a.msb <;> cases m.msb <;> simp

/-- SBC of a byte is in every state ADC of its complement (42 R221). -/
theorem subtractWithBorrow_eq (m : Byte) : subtractWithBorrow m = addWithCarry (m ^^^ 0xFF) := by
  funext s
  have carry (n : Nat) : decide (0 ≤ (n : Int) - 0x100) = decide (n > 0xFF) := by
    rw [decide_eq_decide]; omega
  simp only [subtractWithBorrow, addWithCarry, sbcDifference_eq, ofInt_sub_256, sbcOverflow_eq_adcOverflow, carry]

/-! What ADC leaves in A, C and V. -/

@[simp] theorem setFlag_cpu_a (s : State) (f : Flag) (b : Bool) : (s.setFlag f b).cpu.a = s.cpu.a := rfl

theorem addWithCarry_a (m : Byte) (s : State) :
    (addWithCarry m s).cpu.a = BitVec.ofNat 8 (adcSum s.cpu.a m (carryIn s)) := rfl

theorem addWithCarry_C (m : Byte) (s : State) :
    (addWithCarry m s).flag .C = decide (0xFF < adcSum s.cpu.a m (carryIn s)) := by
  simp [addWithCarry]

theorem addWithCarry_V (m : Byte) (s : State) :
    (addWithCarry m s).flag .V = adcOverflow s.cpu.a m (addWithCarry m s).cpu.a := by
  rw [addWithCarry_a]
  simp [addWithCarry]

theorem carryIn_le_one (s : State) : carryIn s ≤ 1 := Bool.toNat_le _

/-- A and C after ADC are the two digits of the unsigned sum (42 R220). -/
theorem addWithCarry_unsigned (m : Byte) (s : State) :
    (addWithCarry m s).cpu.a.toNat + 0x100 * ((addWithCarry m s).flag .C).toNat =
      s.cpu.a.toNat + m.toNat + carryIn s := by
  have := s.cpu.a.isLt
  have := m.isLt
  have := carryIn_le_one s
  rw [addWithCarry_a, addWithCarry_C, BitVec.toNat_ofNat, adcSum]
  by_cases h : 0xFF < s.cpu.a.toNat + m.toNat + carryIn s
  · rw [decide_eq_true h, Bool.toNat_true]; omega
  · rw [decide_eq_false h, Bool.toNat_false]; omega

/-- The sum of two signed bytes and a carry, as the sign bits of operands and result tell it (42 R220, D44). -/
theorem adcOverflow_signed (a m : Byte) {c : Nat} (hc : c ≤ 1) :
    (adcOverflow a m (BitVec.ofNat 8 (adcSum a m c)) = true ↔
      ¬ (-128 ≤ a.toInt + m.toInt + c ∧ a.toInt + m.toInt + c ≤ 127)) ∧
    (adcOverflow a m (BitVec.ofNat 8 (adcSum a m c)) = false →
      (BitVec.ofNat 8 (adcSum a m c)).toInt = a.toInt + m.toInt + c) := by
  have := a.isLt
  have := m.isLt
  simp only [adcOverflow_eq, BitVec.msb_eq_decide, BitVec.toInt_eq_toNat_cond, BitVec.toNat_ofNat, adcSum,
    decide_eq_true_eq, decide_eq_false_iff_not, decide_eq_decide, ne_eq]
  omega

/-- V after ADC is signed overflow, and without it A is the signed sum. -/
theorem addWithCarry_signed (m : Byte) (s : State) :
    ((addWithCarry m s).flag .V = true ↔ ¬ (-128 ≤ s.cpu.a.toInt + m.toInt + carryIn s ∧
      s.cpu.a.toInt + m.toInt + carryIn s ≤ 127)) ∧
    ((addWithCarry m s).flag .V = false →
      (addWithCarry m s).cpu.a.toInt = s.cpu.a.toInt + m.toInt + carryIn s) := by
  rw [addWithCarry_V, addWithCarry_a]
  exact adcOverflow_signed _ _ (carryIn_le_one s)

end Sys2Proof.Machine

/-! PROOFS. ADC, SBC, the compares, and the steps of X and Y (42 R220 to R224, R227 to R230). -/

namespace Sys2Proof.Machine

theorem exec_adcImmediate (m : Byte) (s : State) : exec (.adcImmediate m) s = .next (addWithCarry m s) := rfl

theorem exec_sbcImmediate (m : Byte) (s : State) : exec (.sbcImmediate m) s = .next (addWithCarry (m ^^^ 0xFF) s) := by
  rw [← subtractWithBorrow_eq]; rfl

/-- The effect of a reading mnemonic may be spelled in another way. -/
theorem ReadsThen.congr {name : Mnemonic} {effect effect' : Byte → State → State} (h : ReadsThen name effect)
    (e : ∀ m t, effect m t = effect' m t) : ReadsThen name effect' := by
  obtain rfl : effect = effect' := funext fun m => funext (e m)
  exact h

/-- The carry as 42 R220 and R221 write it. -/
theorem carryIn_eq (s : State) : carryIn s = if s.flag .C then 1 else 0 := by
  unfold carryIn
  cases s.flag .C <;> rfl

theorem intCast_carryIn (s : State) : (carryIn s : Int) = if s.flag .C then 1 else 0 := by
  rw [carryIn_eq, apply_ite Nat.cast]; rfl

/-- Settles O16: the rows by the table check, the effect by the rule of a reading mnemonic. -/
theorem adcAddsWithCarry : Obligations.AdcAddsWithCarry := by
  refine ⟨hasForms_of_check (by decide),
    ReadsThen.congr (effect := addWithCarry) (readsThen_of_opOf fun _ => rfl) fun m t => ?_⟩
  simp only [addWithCarry, adcSum, carryIn_eq, adcOverflow_eq_decide, gt_iff_lt]

/-- SBC with no borrow and ADC of the two's complement: the same byte, and the carries differ where the operand is 0
(42 R221, conflict C4). -/
theorem complement_versus_negation (m : Byte) (s : State) :
    (addWithCarry (m ^^^ 0xFF) (s.setFlag .C true)).cpu.a = (addWithCarry (-m) (s.setFlag .C false)).cpu.a ∧
    ((addWithCarry (m ^^^ 0xFF) (s.setFlag .C true)).flag .C = (addWithCarry (-m) (s.setFlag .C false)).flag .C ↔
      m ≠ 0) := by
  have hm := m.isLt
  have ha := s.cpu.a.isLt
  have zero : m ≠ 0 ↔ m.toNat ≠ 0 := not_congr BitVec.toNat_inj.symm
  have carrySet : carryIn (s.setFlag .C true) = 1 := by simp [carryIn]
  have carryClear : carryIn (s.setFlag .C false) = 0 := by simp [carryIn]
  simp only [addWithCarry_a, addWithCarry_C, setFlag_cpu_a, carrySet, carryClear, zero, decide_eq_decide, adcSum,
    toNat_xor_FF, BitVec.toNat_neg]
  refine ⟨BitVec.eq_of_toNat_eq ?_, by omega⟩
  rw [BitVec.toNat_ofNat, BitVec.toNat_ofNat]
  omega

/-- Settles O17: an SBC is the ADC of the complement, whose sums are compared as numbers. -/
theorem sbcSubtractsWithBorrow : Obligations.SbcSubtractsWithBorrow := by
  refine ⟨hasForms_of_check (by decide),
    ReadsThen.congr (effect := subtractWithBorrow) (readsThen_of_opOf fun _ => rfl) fun m t => ?_,
    exec_sbcImmediate, fun m s => ⟨_, _, exec_sbcImmediate m _, exec_adcImmediate (-m) _,
      complement_versus_negation m s⟩⟩
  simp only [subtractWithBorrow, sbcDifference, intCast_carryIn, sbcOverflow_eq_decide]

/-- C after SBC is the missing borrow, and A the difference with the borrow paid (42 R221). -/
theorem addWithCarry_complement_unsigned (m : Byte) (s : State) :
    ((addWithCarry (m ^^^ 0xFF) s).flag .C = true ↔ 0 ≤ (s.cpu.a.toNat : Int) - m.toNat - 1 + carryIn s) ∧
    ((addWithCarry (m ^^^ 0xFF) s).cpu.a.toNat : Int) =
      (s.cpu.a.toNat : Int) - m.toNat - 1 + carryIn s + 0x100 * (!(addWithCarry (m ^^^ 0xFF) s).flag .C).toNat := by
  have sum := addWithCarry_unsigned (m ^^^ 0xFF) s
  have := (addWithCarry (m ^^^ 0xFF) s).cpu.a.isLt
  have := m.isLt
  rw [toNat_xor_FF] at sum
  cases hc : (addWithCarry (m ^^^ 0xFF) s).flag .C
  · rw [hc, Bool.toNat_false] at sum
    simp only [Bool.not_false, Bool.toNat_true, Bool.false_eq_true, false_iff]
    omega
  · rw [hc, Bool.toNat_true] at sum
    simp only [Bool.not_true, Bool.toNat_false, true_iff]
    omega

/-- Settles O18: what ADC leaves in A, C and V, for the operand and for its complement. -/
theorem overflowIsSignedOverflow : Obligations.OverflowIsSignedOverflow := by
  intro m s
  obtain ⟨adcV, adcA⟩ := addWithCarry_signed m s
  obtain ⟨sbcV, sbcA⟩ := addWithCarry_signed (m ^^^ 0xFF) s
  have difference : s.cpu.a.toInt + (m ^^^ 0xFF).toInt + carryIn s = s.cpu.a.toInt - m.toInt - 1 + carryIn s := by
    rw [toInt_xor_FF]; omega
  rw [difference] at sbcV sbcA
  exact ⟨_, _, exec_adcImmediate m s, exec_sbcImmediate m s, adcV, adcA, addWithCarry_unsigned m s, sbcV, sbcA,
    addWithCarry_complement_unsigned m s⟩

/-- One step down modulo 256 is 255 steps up. -/
theorem toNat_sub_one (r : Byte) : (r - 1).toNat = (r.toNat + 0xFF) % 0x100 := by
  rw [BitVec.toNat_sub, Nat.add_comm]; rfl

/-- Settles O22: the four have no operand, so their next states are computed. -/
theorem incDecRegisters : Obligations.IncDecRegisters :=
  ⟨hasForms_of_check (by decide), hasForms_of_check (by decide), hasForms_of_check (by decide),
    hasForms_of_check (by decide), fun s =>
      ⟨⟨_, BitVec.toNat_add s.cpu.x 1, rfl⟩, ⟨_, BitVec.toNat_add s.cpu.y 1, rfl⟩,
        ⟨_, toNat_sub_one s.cpu.x, rfl⟩, ⟨_, toNat_sub_one s.cpu.y, rfl⟩⟩⟩

/-- Settles O20: the rows by the table check, the effect by the rule of a reading mnemonic. -/
theorem comparesSetCNZ : Obligations.ComparesSetCNZ :=
  ⟨hasForms_of_check (by decide), hasForms_of_check (by decide), hasForms_of_check (by decide),
    readsThen_of_opOf fun _ => rfl, readsThen_of_opOf fun _ => rfl, readsThen_of_opOf fun _ => rfl⟩

end Sys2Proof.Machine

/-! PROOFS. Operations that neither see nor touch what a change of the state changes; flag writes and bus accesses are
such a pair (20 R81, R82). -/

namespace Sys2Proof.Machine

/-- The operation after the change `g` is the operation before it, with `g` made after. -/
def Commutes {α : Type} (g : State → State) (op : State → Result α) : Prop := ∀ s, op (g s) = (op s).mapState g

section

variable {g : State → State} {α β : Type}

theorem commutes_ok {v : α} {f : State → State} (hf : ∀ s, f (g s) = g (f s)) : Commutes g fun s => .ok v (f s) :=
  fun s => congrArg (Result.ok v) (hf s)

theorem commutes_pure {v : α} : Commutes g fun s => .ok v s := fun _ => rfl

theorem commutes_fault {f : State → Fault} (hf : ∀ s, f (g s) = f s) :
    Commutes g fun s => (.fault (f s) : Result α) := fun s => congrArg Result.fault (hf s)

/-- Every operation commutes with no change at all. -/
theorem commutes_id (op : State → Result α) : Commutes (fun s => s) op := fun s => by
  cases op s <;> rfl

theorem commutes_bind {op : State → Result α} {k : α → State → Result β} (h : Commutes g op)
    (hk : ∀ v, Commutes g (k v)) : Commutes g fun s => (op s).bind k := fun s => by
  dsimp only
  rw [h s]
  cases op s with
  | ok v t => exact hk v t
  | fault f => rfl

/-- An operation that first reads the state for a parameter. -/
theorem commutes_param {p : State → β} {op : β → State → Result α} (h : ∀ b, Commutes g (op b))
    (hp : ∀ s, p (g s) = p s) : Commutes g fun s => op (p s) s := fun s => by
  dsimp only
  rw [hp, h _ s]

/-- An operation after a change of the state that commutes with `g`. -/
theorem commutes_after {op : State → Result α} {f : State → State} (h : Commutes g op)
    (hf : ∀ s, f (g s) = g (f s)) : Commutes g fun s => op (f s) := fun s => by
  dsimp only
  rw [hf, h _]

theorem commutes_ite {c : State → Prop} [∀ s, Decidable (c s)] {f k : State → Result α} (hf : Commutes g f)
    (hk : Commutes g k) (hc : ∀ s, c (g s) ↔ c s) : Commutes g fun s => if c s then f s else k s := fun s => by
  dsimp only
  by_cases h : c s
  · rw [if_pos h, if_pos ((hc s).mpr h), hf s]
  · rw [if_neg h, if_neg (h ∘ (hc s).mp), hk s]

end

section

variable {α : Type} {f : Flag} {b : Bool}

/-- What passes by every status write, and leaves the registers alone, passes by a flag write. -/
theorem commutes_setFlag {op : State → Result α} (h : ∀ p s, op (s.setP p) = (op s).mapState fun t => t.setP p)
    (hp : ∀ {s v t}, op s = .ok v t → t.cpu = s.cpu) : Commutes (fun s => s.setFlag f b) op := fun s => by
  show op (s.setP (withFlag f b s.cpu.p)) = _
  rw [h]
  cases e : op s with
  | fault g => rfl
  | ok v t => rw [mapState_ok, mapState_ok, setFlag_eq, hp e]

theorem commutes_setFlag_memRead (a : Word) : Commutes (fun s => s.setFlag f b) (memRead a) :=
  commutes_setFlag (memRead_setP a) fun e => (memRead_effects e).fields.1

theorem commutes_setFlag_memWrite (a : Word) (v : Byte) : Commutes (fun s => s.setFlag f b) (memWrite a v) :=
  commutes_setFlag (memWrite_setP a v) fun e => (memWrite_effects e).1.fields.1

theorem commutes_setFlag_resolve (form : Form) : Commutes (fun s => s.setFlag f b) (resolve form) :=
  commutes_setFlag (resolve_setP form) fun e => (resolve_effects e).fields.1

theorem commutes_setFlag_operandByte (form : Form) : Commutes (fun s => s.setFlag f b) (operandByte form) :=
  commutes_setFlag (operandByte_setP form) fun e => (operandByte_effects e).fields.1

theorem commutes_setFlag_load (op : Operand) : Commutes (fun s => s.setFlag f b) (load op) := by
  cases op with
  | none => exact commutes_param (p := fun s => s.cpu.a) (fun _ => commutes_pure) fun _ => rfl
  | value => exact commutes_pure
  | address a => exact commutes_setFlag_memRead a

theorem commutes_setFlag_storeBack (op : Operand) (v : Byte) : Commutes (fun s => s.setFlag f b) (storeBack op v) := by
  cases op with
  | none => exact commutes_ok fun _ => rfl
  | value => exact commutes_pure
  | address a => exact commutes_setFlag_memWrite a v

theorem commutes_setFlag_push (v : Byte) : Commutes (fun s => s.setFlag f b) (push v) :=
  commutes_bind (commutes_param (p := fun s => stackAddress s.cpu.sp) (commutes_setFlag_memWrite · v) fun _ => rfl)
    fun _ => commutes_ite (c := fun s => (s.cpu.sp.toNat : Int) - 1 < 0x0100) (commutes_fault fun _ => rfl)
      (commutes_ok fun _ => rfl) fun _ => .rfl

theorem commutes_setFlag_pop : Commutes (fun s => s.setFlag f b) pop :=
  commutes_ite (c := fun s => s.cpu.sp.toNat + 1 > 0x01FF) (commutes_fault fun _ => rfl)
    (commutes_after (op := fun t => memRead (stackAddress t.cpu.sp) t)
      (commutes_param (p := fun s => stackAddress s.cpu.sp) commutes_setFlag_memRead fun _ => rfl) fun _ => rfl)
    fun _ => .rfl

theorem commutes_setFlag_pushWord (w : Word) : Commutes (fun s => s.setFlag f b) (pushWord w) :=
  commutes_bind (commutes_setFlag_push _) fun _ => commutes_setFlag_push _

theorem commutes_setFlag_popWord : Commutes (fun s => s.setFlag f b) popWord :=
  commutes_bind commutes_setFlag_pop fun _ => commutes_bind commutes_setFlag_pop fun _ => commutes_pure

theorem commutes_setFlag_jumpInstr (form : Form) : Commutes (fun s => s.setFlag f b) (jumpInstr form) :=
  commutes_bind (commutes_setFlag_resolve form) fun op => by
    cases op with
    | address => exact commutes_ok fun _ => rfl
    | _ => exact commutes_pure

end

end Sys2Proof.Machine

/-! PROOFS. Read-modify-writes of memory (42 R225, R226; 43 R253). -/

namespace Sys2Proof.Machine

/-- A row of a read-modify-write mnemonic is an accumulator row or has an address form. -/
theorem formOf_modify_isAddress {i : Instr} (hk : kindOf i.row.name = .modify) (hm : i.row.mode ≠ .accumulator) :
    (formOf i).isAddress = true := by
  cases i <;> first | rfl | exact absurd rfl hm | cases hk

theorem flag_congr {s t : State} (h : t.cpu = s.cpu) (f : Flag) : t.flag f = s.flag f := by
  rw [State.flag, State.flag, h]

/-- A mnemonic that is a read-modify-write on every form: what it does before its store passes by the store, and all of
it together is `effect` on the state after the store. -/
theorem modifiesMemory_of_opOf {name : Mnemonic} {result : Byte → Bool → Byte}
    {early late effect : Byte → State → State} (hk : kindOf name = .modify)
    (h : ∀ form, opOf name form = modifyInstr form (fun m s => result m (s.flag .C)) early late)
    (he : ∀ m a v, Commutes (early m) (memWrite a v))
    (effect_eq : ∀ m w, late (result m (w.flag .C)) (early m w) = effect m w) : ModifiesMemory name result effect := by
  intro i s hn hm
  have done : ∀ a t m u w, resolve (formOf i) s = .ok (.address a) t → memRead a t = .ok m u →
      memWrite a (result m (s.flag .C)) u = .ok () w → exec i s = .next (effect m w) := fun a t m u w hr hl hw => by
    have cpu : u.cpu = s.cpu := ((resolve_effects hr).trans (memRead_effects hl)).fields.1
    have carryRead : u.flag .C = s.flag .C := flag_congr cpu .C
    have carryStored : w.flag .C = s.flag .C := flag_congr ((memWrite_effects hw).1.fields.1.trans cpu) .C
    rw [exec_of_name hn, h, modifyInstr_eq hr hl, carryRead, he m, hw, mapState_ok, bind_ok, outcome_ok, ← effect_eq,
      carryStored]
  refine ⟨fun hc => ?_, fun a t m u w hr hl hw =>
    ⟨done a t m u w hr hl hw, (resolve_effects hr).trans (memRead_effects hl), (memWrite_effects hw).1⟩⟩
  obtain ⟨op, t, hr⟩ := resolve_connected (formOf i) hc
  obtain ⟨a, rfl⟩ := resolve_address hr (formOf_modify_isAddress (hn ▸ hk) hm)
  have ht := (resolve_effects hr).connected hc
  obtain ⟨m, u, hl⟩ := memRead_connected a ht
  obtain ⟨w, hw⟩ := memWrite_connected a (result m (s.flag .C)) ((memRead_effects hl).connected ht)
  exact ⟨a, t, m, u, w, hr, hl, hw, done a t m u w hr hl hw⟩

/-- A mnemonic that does nothing before its store. -/
theorem modifiesMemory_of_late {name : Mnemonic} {result : Byte → Byte} {late : Byte → State → State}
    (hk : kindOf name = .modify)
    (h : ∀ form, opOf name form = modifyInstr form (fun m _ => result m) (fun _ s => s) late) :
    ModifiesMemory name (fun m _ => result m) fun m => late (result m) :=
  modifiesMemory_of_opOf hk h (fun _ _ _ => commutes_id _) fun _ _ => rfl

/-- Settles O21: the rows by the table check, the effect by the rule of a read-modify-write. -/
theorem incDecMemory : Obligations.IncDecMemory :=
  ⟨hasForms_of_check (by decide), hasForms_of_check (by decide),
    modifiesMemory_of_late (late := fun r s => s.setNZ r) rfl fun _ => rfl,
    modifiesMemory_of_late (late := fun r s => s.setNZ r) rfl fun _ => rfl⟩

end Sys2Proof.Machine

/-! PROOFS. `P.D` passes by every operation but those that store, load, set or clear it (42 R232, 10 R29). -/

namespace Sys2Proof.Machine

/-- The operation neither depends on `P.D` nor changes it. -/
def DecimalInert {α : Type} (op : State → Result α) : Prop := ∀ d, Commutes (fun s => s.setFlag .D d) op

/-- The change of the state neither depends on `P.D` nor changes it. -/
def DecimalInertEffect (f : State → State) : Prop := ∀ s d, f (s.setFlag .D d) = (f s).setFlag .D d

/-- Writes of different flags commute. -/
theorem withFlag_comm {f g : Flag} (h : f ≠ g) (b c : Bool) (p : Byte) :
    withFlag f b (withFlag g c p) = withFlag g c (withFlag f b p) := by
  refine status_ext fun k => ?_
  simp only [flagOf_withFlag]
  by_cases hf : k = f
  · simp only [hf, h, if_true, if_false]
  · simp only [hf, if_false]

@[simp] theorem setFlag_setD {f : Flag} (h : f ≠ .D) (b : Bool) (s : State) (d : Bool) :
    (s.setFlag .D d).setFlag f b = (s.setFlag f b).setFlag .D d := congrArg s.setP (withFlag_comm h b d s.cpu.p)

@[simp] theorem setNZ_setD (v : Byte) (s : State) (d : Bool) :
    (s.setFlag .D d).setNZ v = (s.setNZ v).setFlag .D d := by
  simp [State.setNZ]

@[simp] theorem setA_setD (v : Byte) (s : State) (d : Bool) :
    (s.setFlag .D d).setA v = (s.setA v).setFlag .D d := rfl

theorem addWithCarry_setD (m : Byte) : DecimalInertEffect (addWithCarry m) := fun s d => by
  simp [addWithCarry, carryIn]

theorem subtractWithBorrow_setD (m : Byte) : DecimalInertEffect (subtractWithBorrow m) := by
  rw [subtractWithBorrow_eq]; exact addWithCarry_setD _

theorem compareWith_setD (reg m : Byte) : DecimalInertEffect (compareWith reg m) := fun s d => by
  simp [compareWith]

theorem bitTest_setD (m : Byte) : DecimalInertEffect (bitTest m) := fun s d => by
  simp [bitTest]

/-- `SetNZ` of a byte that is no matter of `P.D`, after a change that is not. -/
theorem DecimalInertEffect.thenNZ {f : State → State} {v : State → Byte} (hf : DecimalInertEffect f)
    (hv : ∀ s d, v (s.setFlag .D d) = v s) : DecimalInertEffect fun s => (f s).setNZ (v s) := fun s d => by
  dsimp only
  rw [hf, hv, setNZ_setD]

/-- A byte of A and the result goes to A, and N and Z follow it. -/
theorem combineA_setD (f : Byte → Byte) : DecimalInertEffect fun s => (s.setA (f s.cpu.a)).setNZ (f s.cpu.a) :=
  .thenNZ (f := fun s => s.setA (f s.cpu.a)) (fun _ _ => rfl) fun _ _ => rfl

/-! The shapes of an operation. -/

theorem decimalInert_registers {f : State → State} (h : DecimalInertEffect f) : DecimalInert fun s => .ok () (f s) :=
  fun d => commutes_ok (h · d)

theorem decimalInert_readInstr (form : Form) {effect : Byte → State → State} (h : ∀ m, DecimalInertEffect (effect m)) :
    DecimalInert (readInstr form effect) := fun d =>
  commutes_bind (commutes_setFlag_operandByte form) fun m => decimalInert_registers (h m) d

theorem decimalInert_storeInstr (form : Form) {source : State → Byte}
    (h : ∀ s d, source (s.setFlag .D d) = source s) : DecimalInert (storeInstr form source) := fun d =>
  commutes_bind (commutes_setFlag_resolve form) fun op =>
    commutes_param (p := source) (commutes_setFlag_storeBack op) (h · d)

theorem decimalInert_modifyInstr (form : Form) {result : Byte → State → Byte} {early late : Byte → State → State}
    (hr : ∀ m s d, result m (s.setFlag .D d) = result m s) (he : ∀ m, DecimalInertEffect (early m))
    (hl : ∀ m, DecimalInertEffect (late m)) : DecimalInert (modifyInstr form result early late) := fun d =>
  commutes_bind (commutes_setFlag_resolve form) fun op =>
    commutes_bind (commutes_setFlag_load op) fun m =>
      commutes_param (p := result m) (op := fun r s => (storeBack op r (early m s)).bind fun _ t => .ok () (late r t))
        (fun r => commutes_bind (commutes_after (commutes_setFlag_storeBack op r) (he m · d))
          fun _ => decimalInert_registers (hl r) d) (hr m · d)

theorem decimalInert_shiftInstr (form : Form) (shift : Byte → Bool → Shifted) {late : Byte → State → State}
    (hl : ∀ m, DecimalInertEffect (late m)) : DecimalInert (shiftInstr form shift late) :=
  decimalInert_modifyInstr form (fun _ _ _ => by simp) (fun _ _ _ => by simp) hl

theorem decimalInert_branchInstr (disp : Int) {taken : State → Bool}
    (h : ∀ s d, taken (s.setFlag .D d) = taken s) : DecimalInert (branchInstr disp taken) := fun d =>
  commutes_ite (c := fun s => taken s = true) (commutes_setFlag_jumpInstr _) commutes_pure fun s => by rw [h]

/-- The operations that do not store, load, set or clear `P.D`. -/
theorem decimalInert_opOf {name : Mnemonic} (h : name ∉ [Mnemonic.PHP, .BRK, .PLP, .RTI, .CLD, .SED]) (form : Form) :
    DecimalInert (opOf name form) := by
  cases name
  case PHP | BRK | PLP | RTI | CLD | SED => exact absurd (by decide) h
  case ADC => exact decimalInert_readInstr form addWithCarry_setD
  case SBC => exact decimalInert_readInstr form subtractWithBorrow_setD
  case CMP => exact decimalInert_readInstr form fun m s => compareWith_setD s.cpu.a m s
  case CPX => exact decimalInert_readInstr form fun m s => compareWith_setD s.cpu.x m s
  case CPY => exact decimalInert_readInstr form fun m s => compareWith_setD s.cpu.y m s
  case BIT => exact decimalInert_readInstr form bitTest_setD
  case AND => exact decimalInert_readInstr form fun m => combineA_setD (· &&& m)
  case ORA => exact decimalInert_readInstr form fun m => combineA_setD (· ||| m)
  case EOR => exact decimalInert_readInstr form fun m => combineA_setD (· ^^^ m)
  case LDA | LDX | LDY | LAX =>
    exact decimalInert_readInstr form fun _ => .thenNZ (fun _ _ => rfl) fun _ _ => rfl
  case STA | STX | STY | SAX => exact decimalInert_storeInstr form fun _ _ => rfl
  case INC | DEC =>
    exact decimalInert_modifyInstr form (late := fun r s => s.setNZ r) (fun _ _ _ => rfl) (fun _ _ _ => rfl) setNZ_setD
  case DCP =>
    exact decimalInert_modifyInstr form (late := fun r s => compareWith s.cpu.a r s) (fun _ _ _ => rfl)
      (fun _ _ _ => rfl) fun r s => compareWith_setD s.cpu.a r s
  case ISB => exact decimalInert_modifyInstr form (fun _ _ _ => rfl) (fun _ _ _ => rfl) subtractWithBorrow_setD
  case ASL | LSR | ROL | ROR => exact decimalInert_shiftInstr form _ (late := fun r s => s.setNZ r) setNZ_setD
  case SLO => exact decimalInert_shiftInstr form _ fun r => combineA_setD (· ||| r)
  case SRE => exact decimalInert_shiftInstr form _ fun r => combineA_setD (· ^^^ r)
  case RLA => exact decimalInert_shiftInstr form _ fun r => combineA_setD (· &&& r)
  case RRA => exact decimalInert_shiftInstr form _ addWithCarry_setD
  case JMP => exact fun _ => commutes_setFlag_jumpInstr form
  case BCC | BCS | BEQ | BNE | BMI | BPL | BVC | BVS =>
    cases form with
    | relative disp => exact decimalInert_branchInstr disp fun _ _ => by simp
    | _ => exact fun _ => commutes_pure
  case TAX | TAY | TXA | TYA | TSX | INX | INY | DEX | DEY =>
    exact decimalInert_registers (.thenNZ (fun _ _ => rfl) fun _ _ => rfl)
  case CLC | SEC | CLI | SEI | CLV => exact decimalInert_registers (setFlag_setD (by decide) _)
  case NOP => exact fun _ => commutes_pure
  case TXS => exact decimalInert_registers fun _ _ => rfl
  case JSR =>
    cases form with
    | absolute a =>
      exact fun _ => commutes_bind
        (commutes_param (p := fun s => s.cpu.pc - 1) commutes_setFlag_pushWord fun _ => rfl)
        fun _ => commutes_ok fun _ => rfl
    | _ => exact fun _ => commutes_pure
  case RTS => exact fun _ => commutes_bind commutes_setFlag_popWord fun _ => commutes_ok fun _ => rfl
  case PHA => exact fun _ => commutes_param (p := fun s => s.cpu.a) commutes_setFlag_push fun _ => rfl
  case PLA =>
    exact fun d => commutes_bind commutes_setFlag_pop fun _ =>
      decimalInert_registers (.thenNZ (fun _ _ => rfl) fun _ _ => rfl) d

/-- Settles O19: the operation of the mnemonic commutes with a write of `P.D`. -/
theorem decimalFlagIsInert : Obligations.DecimalFlagIsInert := fun i s d hn => by
  rw [exec_eq, exec_eq, decimalInert_opOf hn (formOf i) d s]
  cases opOf i.row.name (formOf i) s <;> rfl

end Sys2Proof.Machine

/-! PROOFS. AND, ORA, EOR and BIT (43 R245 to R248). -/

namespace Sys2Proof.Machine

/-- Settles O23: the rows by the table check, the effect by the rule of a reading mnemonic. -/
theorem logicalOperationsOnA : Obligations.LogicalOperationsOnA :=
  ⟨hasForms_of_check (by decide), hasForms_of_check (by decide), hasForms_of_check (by decide),
    readsThen_of_opOf fun _ => rfl, readsThen_of_opOf fun _ => rfl, readsThen_of_opOf fun _ => rfl⟩

/-- Settles O24: the rows by the table check, the effect by the rule of a reading mnemonic. -/
theorem bitTestsMemory : Obligations.BitTestsMemory :=
  ⟨hasForms_of_check (by decide), readsThen_of_opOf (effect := bitTest) fun _ => rfl⟩

end Sys2Proof.Machine

/-! PROOFS. Shifts and rotates: what each leaves of a byte and a carry, and what that makes of A and of memory (43 R249
to R253). -/

namespace Sys2Proof.Machine

/-- ASL, as 43 R249 writes it. -/
theorem shiftLeft_eq (m : Byte) (c : Bool) : shiftLeft m c = ⟨m <<< 1, m.getLsbD 7⟩ := rfl

/-- LSR, as 43 R250 writes it. -/
theorem shiftRight_eq (m : Byte) (c : Bool) : shiftRight m c = ⟨m >>> 1, m.getLsbD 0⟩ := rfl

/-- ROL, as 43 R251 writes it. -/
theorem rotateLeft_eq (m : Byte) (c : Bool) :
    rotateLeft m c = ⟨(m <<< 1) ||| (if c then 0x01 else 0x00), m.getLsbD 7⟩ := by
  cases c <;> rfl

/-- ROR, as 43 R252 writes it. -/
theorem rotateRight_eq (m : Byte) (c : Bool) :
    rotateRight m c = ⟨(m >>> 1) ||| (if c then 0x80 else 0x00), m.getLsbD 0⟩ := by
  cases c <;> rfl

section

variable {shift : Byte → Bool → Shifted} {result : Byte → Bool → Byte} {out : Byte → Bool}

/-- A shift whose bit shifted out is a matter of the byte alone sets C to it before its store. -/
theorem shiftInstr_eq_modifyInstr (hs : ∀ m c, shift m c = ⟨result m c, out m⟩) (form : Form)
    (late : Byte → State → State) : shiftInstr form shift late =
      modifyInstr form (fun m s => result m (s.flag .C)) (fun m s => s.setFlag .C (out m)) late := by
  funext s
  simp only [shiftInstr, hs]

/-- A mnemonic that is a shift on every form: its write of C passes by the store. -/
theorem modifiesMemory_of_shift {name : Mnemonic} {late : Byte → State → State} (hk : kindOf name = .modify)
    (h : ∀ form, opOf name form = shiftInstr form shift late) (hs : ∀ m c, shift m c = ⟨result m c, out m⟩) :
    ModifiesMemory name result fun m w => late (result m (w.flag .C)) (w.setFlag .C (out m)) :=
  modifiesMemory_of_opOf hk (fun form => (h form).trans (shiftInstr_eq_modifyInstr hs form late))
    (fun _ a v => commutes_setFlag_memWrite a v) fun _ _ => rfl

/-- A shift of the accumulator: no access, A takes the result (40 R169). -/
theorem shiftInstr_accumulator (hs : ∀ m c, shift m c = ⟨result m c, out m⟩) (late : Byte → State → State)
    (s : State) : shiftInstr .accumulator shift late s =
      .ok () (late (result s.cpu.a (s.flag .C))
        ((s.setFlag .C (out s.cpu.a)).setA (result s.cpu.a (s.flag .C)))) := by
  rw [shiftInstr_eq_modifyInstr hs]; rfl

/-- A row that shifts the accumulator and has N and Z follow it. -/
theorem exec_of_shiftAccumulator (i : Instr) (hs : ∀ m c, shift m c = ⟨result m c, out m⟩) (s : State)
    (h : exec i s = (shiftInstr .accumulator shift (fun r s => s.setNZ r) s).outcome) :
    ∃ r, r = result s.cpu.a (s.flag .C) ∧ exec i s = .next (((s.setFlag .C (out s.cpu.a)).setA r).setNZ r) :=
  ⟨_, rfl, by rw [h, shiftInstr_accumulator hs, outcome_ok]⟩

end

/-- Settles O25: the rows by the table check, the effect by the rule of a shift, in memory and in A. -/
theorem shiftsAndRotates : Obligations.ShiftsAndRotates :=
  ⟨hasForms_of_check (by decide), hasForms_of_check (by decide), hasForms_of_check (by decide),
    hasForms_of_check (by decide),
    modifiesMemory_of_shift (late := fun r s => s.setNZ r) rfl (fun _ => rfl) shiftLeft_eq,
    modifiesMemory_of_shift (late := fun r s => s.setNZ r) rfl (fun _ => rfl) shiftRight_eq,
    modifiesMemory_of_shift (late := fun r s => s.setNZ r) rfl (fun _ => rfl) rotateLeft_eq,
    modifiesMemory_of_shift (late := fun r s => s.setNZ r) rfl (fun _ => rfl) rotateRight_eq,
    fun s => ⟨(exec_of_shiftAccumulator .aslAccumulator shiftLeft_eq s rfl :),
      (exec_of_shiftAccumulator .lsrAccumulator shiftRight_eq s rfl :),
      (exec_of_shiftAccumulator .rolAccumulator rotateLeft_eq s rfl :),
      (exec_of_shiftAccumulator .rorAccumulator rotateRight_eq s rfl :)⟩⟩

end Sys2Proof.Machine

/-! PROOFS. Transfers of control: branches, jumps, subroutine call and return (44 R270 to R281). -/

namespace Sys2Proof.Machine

/-- A jump goes where its form resolves to (40 R167). -/
theorem jumpInstr_eq {form : Form} {s t : State} {a : Word} (h : resolve form s = .ok (.address a) t) :
    jumpInstr form s = .ok () (t.setPc a) := by rw [jumpInstr, bind_of_ok h]

/-- A branch resolves without a read, so it completes either way (40 R180, 44 R270). -/
theorem branchInstr_outcome (disp : Int) (taken : State → Bool) (s : State) : (branchInstr disp taken s).outcome =
    .next (if taken s then s.setPc (s.cpu.pc + BitVec.ofInt 16 disp) else s) := by
  unfold branchInstr
  split
  · rw [jumpInstr_eq (form := .relative disp) rfl, outcome_ok, branchTarget]
  · rfl

/-- Settles O26: the rows by the table check, each meaning by the rule of a branch on its own flag. -/
theorem branchesTestOneFlag : Obligations.BranchesTestOneFlag :=
  ⟨hasForms_of_check (by decide), hasForms_of_check (by decide), hasForms_of_check (by decide),
    hasForms_of_check (by decide), hasForms_of_check (by decide), hasForms_of_check (by decide),
    hasForms_of_check (by decide), hasForms_of_check (by decide), fun s disp =>
    ⟨branchInstr_outcome disp (fun s => !s.flag .C) s, branchInstr_outcome disp (fun s => s.flag .C) s,
      branchInstr_outcome disp (fun s => s.flag .Z) s, branchInstr_outcome disp (fun s => !s.flag .Z) s,
      branchInstr_outcome disp (fun s => s.flag .N) s, branchInstr_outcome disp (fun s => !s.flag .N) s,
      branchInstr_outcome disp (fun s => !s.flag .V) s, branchInstr_outcome disp (fun s => s.flag .V) s⟩⟩

theorem exec_jmpAbsolute (a : Word) (s : State) : exec (.jmpAbsolute a) s = .next (s.setPc a) := rfl

theorem exec_jmpIndirectAbsolute {p a : Word} {s t : State} (h : resolve (.indirectAbsolute p) s = .ok (.address a) t) :
    exec (.jmpIndirectAbsolute p) s = .next (t.setPc a) := by
  rw [exec_of_name (name := .JMP) rfl]
  exact congrArg Result.outcome (jumpInstr_eq h)

/-- Settles O27: both rows jump where their form resolves to, and the indirect form resolves in a connected state. -/
theorem jumpSetsPc : Obligations.JumpSetsPc := by
  refine ⟨hasForms_of_check (by decide), fun s a => exec_jmpAbsolute a s,
    fun s t p a h => ⟨exec_jmpIndirectAbsolute h, resolve_effects h⟩, fun s p c => ?_⟩
  obtain ⟨op, t, h⟩ := resolve_connected (.indirectAbsolute p) c
  obtain ⟨a, rfl⟩ := resolve_address h rfl
  exact ⟨a, t, h, exec_jmpIndirectAbsolute h⟩

theorem storedBytes_refl (m : Memory) : StoredBytes m m [] := fun _ => rfl

/-- One more byte stored, at a place not stored before. -/
theorem StoredBytes.setByte {before after : Memory} {bytes : List (Nat × Byte)} (h : StoredBytes before after bytes)
    {k : Nat} (hk : bytes.lookup k = none) (v : Byte) :
    StoredBytes before (setByte after k v) (bytes ++ [(k, v)]) := fun j => by
  rw [byteAt_setByte, List.lookup_append]
  by_cases hj : j = k
  · simp [hj, hk]
  · simp [hj, h j, List.lookup_cons, beq_eq_false_iff_ne.mpr hj]

/-- A word cannot be pushed into fewer than two bytes: the first or the second push faults (60 R475). -/
theorem pushWord_full {s : State} (h : 0x0100 ≤ s.cpu.sp.toNat ∧ s.cpu.sp.toNat ≤ 0x0101) (w : Word) :
    pushWord w s = .fault (.stackPointerOverflow 0x00FF) := by
  have : s.cpu.sp = 0x0100 ∨ s.cpu.sp = 0x0101 := by bv_omega
  unfold pushWord
  rcases this with h | h
  · rw [push_full h, bind_fault]
  · rw [push_room (by rw [h]; decide), bind_ok, push_full (by simp [h])]

/-- A word cannot be popped from fewer than two bytes: the first or the second pop faults (60 R476). -/
theorem popWord_empty {s : State} (h : 0x01FE ≤ s.cpu.sp.toNat ∧ s.cpu.sp.toNat ≤ 0x01FF) :
    popWord s = .fault (.stackPointerUnderflow 0x0200) := by
  have : s.cpu.sp = 0x01FE ∨ s.cpu.sp = 0x01FF := by bv_omega
  unfold popWord
  rcases this with h | h
  · rw [pop_room (by rw [h]; decide), bind_ok, pop_empty (by simp [h]), bind_fault]
  · rw [pop_empty h, bind_fault]

/-- JSR with room: the address of its last byte is pushed, `PC` is the target (44 R280). -/
theorem exec_jsr_room {s : State} (h : 0x0102 ≤ s.cpu.sp.toNat ∧ s.cpu.sp.toNat ≤ 0x01FF) (a : Word) :
    exec (.jsr a) s = .next { s with
      wram := setByte (setByte s.wram s.cpu.sp.toNat (highByte (s.cpu.pc - 1))) (s.cpu.sp.toNat - 1)
        (lowByte (s.cpu.pc - 1))
      cpu := { s.cpu with pc := a, sp := s.cpu.sp - 2 } } :=
  congrArg Result.outcome (bind_of_ok (pushWord_room h _))

/-- RTS with two bytes to pop: `PC` is one past the word popped (44 R281). -/
theorem exec_rts_room {s : State} (h : 0x0100 ≤ s.cpu.sp.toNat ∧ s.cpu.sp.toNat ≤ 0x01FD) :
    exec .rts s = .next { s with
      cpu := { s.cpu with pc := wramWord s (s.cpu.sp.toNat + 1) + 1, sp := s.cpu.sp + 2 } } :=
  congrArg Result.outcome (bind_of_ok (popWord_room h))

theorem exec_jsr_full {s : State} (h : 0x0100 ≤ s.cpu.sp.toNat ∧ s.cpu.sp.toNat ≤ 0x0101) (a : Word) :
    exec (.jsr a) s = .fault (.stackPointerOverflow 0x00FF) :=
  congrArg Result.outcome (bind_of_fault (pushWord_full h _))

theorem exec_rts_empty {s : State} (h : 0x01FE ≤ s.cpu.sp.toNat ∧ s.cpu.sp.toNat ≤ 0x01FF) :
    exec .rts s = .fault (.stackPointerUnderflow 0x0200) :=
  congrArg Result.outcome (bind_of_fault (popWord_empty h))

/-- RTS pops the word that JSR pushed, so it goes on where JSR would have ended (44 R280, R281). -/
theorem exec_rts_after_jsr {s t : State} {a : Word} (h : 0x0102 ≤ s.cpu.sp.toNat ∧ s.cpu.sp.toNat ≤ 0x01FF)
    (e : exec (.jsr a) s = .next t) : exec .rts t = .next { s with wram := t.wram } := by
  rw [exec_jsr_room h] at e
  cases e
  have sp : (s.cpu.sp - 2).toNat = s.cpu.sp.toNat - 2 := by bv_omega
  have lo : s.cpu.sp.toNat - 2 + 1 = s.cpu.sp.toNat - 1 := by omega
  have hi : s.cpu.sp.toNat - 1 + 1 = s.cpu.sp.toNat := by omega
  have other : s.cpu.sp.toNat ≠ s.cpu.sp.toNat - 1 := by omega
  rw [exec_rts_room (by simp only [sp]; omega)]
  simp only [wramWord, sp, lo, hi, byteAt_setByte_same, byteAt_setByte_other other,
    Laws.RoundTrip.word_roundTrip, BitVec.sub_add_cancel]

/-- Settles O28: call and return by the rules of a word pushed and popped, with room and without. -/
theorem subroutineCallAndReturn : Obligations.SubroutineCallAndReturn := by
  refine ⟨hasForms_of_check (by decide), hasForms_of_check (by decide), fun s a h => ⟨_, exec_jsr_room h a, ?_⟩,
    fun _ => exec_rts_room, fun s a ⟨lo, hi⟩ => ⟨fun h => exec_jsr_full ⟨lo, h⟩ a, fun h => exec_rts_empty ⟨h, hi⟩,
      fun h => ?_⟩⟩
  · have below : [(s.cpu.sp.toNat, highByte (s.cpu.pc - 1))].lookup (s.cpu.sp.toNat - 1) = none :=
      List.lookup_eq_none_iff.mpr (by simp; omega)
    exact ((storedBytes_refl _).setByte rfl _).setByte below _
  · have call := exec_jsr_room ⟨h, hi⟩ a
    exact ⟨_, call, exec_rts_after_jsr ⟨h, hi⟩ call⟩

end Sys2Proof.Machine

/-! PROOFS. Stack, flag and system instructions: bytes pushed and pulled, the frame of BRK and its return (45 R295 to
R308). -/

namespace Sys2Proof.Machine

/-- Settles O31: a flag instruction has no operand, so its next state is computed. -/
theorem flagInstructionsAndNop : Obligations.FlagInstructionsAndNop :=
  ⟨hasForms_of_check (by decide), hasForms_of_check (by decide), hasForms_of_check (by decide),
    hasForms_of_check (by decide), hasForms_of_check (by decide), hasForms_of_check (by decide),
    hasForms_of_check (by decide), hasForms_of_check (by decide), fun _ => ⟨rfl, rfl, rfl, rfl, rfl, rfl, rfl, rfl⟩⟩

/-- PHA with room: A at `SP` (45 R295). -/
theorem exec_pha_room {s : State} (h : 0x0101 ≤ s.cpu.sp.toNat ∧ s.cpu.sp.toNat ≤ 0x01FF) :
    exec .pha s = .next { s with
      wram := setByte s.wram s.cpu.sp.toNat s.cpu.a
      cpu := { s.cpu with sp := s.cpu.sp - 1 } } :=
  congrArg Result.outcome (push_room h _)

/-- PHP with room: the break bit is set in P itself, and the byte at `SP` is that P (45 R296). -/
theorem exec_php_room {s : State} (h : 0x0101 ≤ s.cpu.sp.toNat ∧ s.cpu.sp.toNat ≤ 0x01FF) :
    exec .php s = .next { s with
      wram := setByte s.wram s.cpu.sp.toNat (s.cpu.p ||| 0x10)
      cpu := { s.cpu with sp := s.cpu.sp - 1, p := s.cpu.p ||| 0x10 } } :=
  congrArg Result.outcome (push_room (s := s.setFlag .B true) h _)

/-- PLA with a byte to pop: A takes it, N and Z follow (45 R297). -/
theorem exec_pla_room {s : State} (h : 0x0100 ≤ s.cpu.sp.toNat ∧ s.cpu.sp.toNat ≤ 0x01FE) :
    exec .pla s = .next (((s.setSp (s.cpu.sp + 1)).setA (byteAt s.wram (s.cpu.sp.toNat + 1))).setNZ
      (byteAt s.wram (s.cpu.sp.toNat + 1))) :=
  congrArg Result.outcome (bind_of_ok (pop_room h))

/-- PLP with a byte to pop: P takes it with bit 5 forced to 1 (45 R298). -/
theorem exec_plp_room {s : State} (h : 0x0100 ≤ s.cpu.sp.toNat ∧ s.cpu.sp.toNat ≤ 0x01FE) :
    exec .plp s = .next ((s.setSp (s.cpu.sp + 1)).setP (byteAt s.wram (s.cpu.sp.toNat + 1) ||| 0x20)) :=
  congrArg Result.outcome (bind_of_ok (pop_room h))

/-- A byte put into page 1 by `or` is added to the page's base, for its bits are not the base's (41 R202). -/
theorem toNat_pageOne_or (x : Byte) : (0x0100 ||| x.setWidth 16 : Word).toNat = 0x0100 + x.toNat := by
  rw [BitVec.toNat_or, BitVec.toNat_setWidth_of_le (by decide)]
  exact (Nat.two_pow_add_eq_or_of_lt (i := 8) x.isLt 1).symm

/-- Settles O29: one push or one pop with room; TSX and TXS have no operand, so their next states are computed. -/
theorem stackByteInstructions : Obligations.StackByteInstructions :=
  ⟨hasForms_of_check (by decide), hasForms_of_check (by decide), hasForms_of_check (by decide),
    hasForms_of_check (by decide), hasForms_of_check (by decide), hasForms_of_check (by decide),
    fun _ h => ⟨⟨_, exec_pha_room h, (storedBytes_refl _).setByte rfl _⟩,
      ⟨_, exec_php_room h, (storedBytes_refl _).setByte rfl _⟩⟩,
    fun _ h => ⟨exec_pla_room h, exec_plp_room h⟩,
    fun s => ⟨rfl, _, rfl, toNat_pageOne_or s.cpu.x⟩⟩

/-- The state after BRK has pushed its frame: the address two past its opcode and P with the break bit, which P keeps
(45 R307). -/
def brkFramed (s : State) : State :=
  { s with
    wram := setByte (setByte (setByte s.wram s.cpu.sp.toNat (highByte (s.cpu.pc + 1)))
      (s.cpu.sp.toNat - 1) (lowByte (s.cpu.pc + 1))) (s.cpu.sp.toNat - 2) (s.cpu.p ||| 0x10)
    cpu := { s.cpu with pc := s.cpu.pc + 1, sp := s.cpu.sp - 3, p := s.cpu.p ||| 0x10 } }

/-- BRK with room pushes its frame, then takes the branch of the old I (45 R307). -/
theorem opBrk_room {s : State} (h : 0x0103 ≤ s.cpu.sp.toNat ∧ s.cpu.sp.toNat ≤ 0x01FF) :
    opBrk s = if s.flag .I then .ok () ((brkFramed s).setFlag .I true)
      else (readWord irqVector (brkFramed s)).bind fun target t => .ok () ((t.setPc target).setFlag .I true) :=
  bind_of_ok (pushFrame_room (s := (s.setPc (s.cpu.pc + 1)).setFlag .B true) h)

/-- Setting I after the break bit sets bits 2 and 4 of P (10 R25). -/
theorem withFlag_I_or_break (p : Byte) : withFlag .I true (p ||| 0x10) = p ||| 0x14 := BitVec.or_assoc p 0x10 0x04

/-- BRK with room while I is set goes on past its second byte, with or without a ROM (45 R307). -/
theorem exec_brk_masked {s : State} (h : 0x0103 ≤ s.cpu.sp.toNat ∧ s.cpu.sp.toNat ≤ 0x01FF)
    (hI : s.flag .I = true) : exec .brk s = .next ((brkFramed s).setP (s.cpu.p ||| 0x14)) := by
  have masked : opBrk s = .ok () ((brkFramed s).setFlag .I true) := by rw [opBrk_room h, if_pos hI]
  rw [← withFlag_I_or_break]
  exact congrArg Result.outcome masked

/-- BRK with room while I is clear enters its vector (45 R307). -/
theorem exec_brk_entered {s : State} (h : 0x0103 ≤ s.cpu.sp.toNat ∧ s.cpu.sp.toNat ≤ 0x01FF)
    (hI : s.flag .I = false) {rom : PrgRom} (hr : s.config.prgRom = some rom) :
    exec .brk s = .next (((brkFramed s).setPc (romWord rom 0xFFFE)).setP (s.cpu.p ||| 0x14)) := by
  have vector : readWord irqVector (brkFramed s) = .ok (romWord rom 0xFFFE) (brkFramed s) :=
    readWord_rom (by decide) (by decide) hr
  have entered : opBrk s = .ok () (((brkFramed s).setPc (romWord rom 0xFFFE)).setFlag .I true) := by
    rw [opBrk_room h, hI, if_neg Bool.false_ne_true, bind_of_ok vector]
  rw [← withFlag_I_or_break]
  exact congrArg Result.outcome entered

/-- BRK with room while I is clear and no ROM is attached faults at the vector read (45 R307, 60 R474). -/
theorem exec_brk_noRom {s : State} (h : 0x0103 ≤ s.cpu.sp.toNat ∧ s.cpu.sp.toNat ≤ 0x01FF)
    (hI : s.flag .I = false) (hr : s.config.prgRom = none) :
    exec .brk s = .fault (.resourceNotConnected .programRom) := by
  have vector : readWord irqVector (brkFramed s) = .fault (.resourceNotConnected .programRom) :=
    bind_of_fault (memRead_noRom (by decide) hr)
  have faulted : opBrk s = .fault (.resourceNotConnected .programRom) := by
    rw [opBrk_room h, hI, if_neg Bool.false_ne_true, bind_of_fault vector]
  exact congrArg Result.outcome faulted

/-- The three bytes of a frame stand at three places, as pushed. -/
theorem storedBytes_frame (m : Memory) {k : Nat} (hk : 2 ≤ k) (hi lo p : Byte) :
    StoredBytes m (setByte (setByte (setByte m k hi) (k - 1) lo) (k - 2) p) [(k, hi), (k - 1, lo), (k - 2, p)] := by
  have second : [(k, hi)].lookup (k - 1) = none := List.lookup_eq_none_iff.mpr (by simp; omega)
  have third : [(k, hi), (k - 1, lo)].lookup (k - 2) = none := List.lookup_eq_none_iff.mpr (by simp; omega)
  exact (((storedBytes_refl m).setByte rfl hi).setByte second lo).setByte third p

/-- Settles O32: the frame, then the branch of the old I, with the vector read only where I was clear. -/
theorem brkBuildsTheFrame : Obligations.BrkBuildsTheFrame := by
  refine ⟨hasForms_of_check (by decide), fun s h => ⟨fun target ht => ⟨(brkFramed s).wram, ?_, ?_⟩,
    exec_brk_noRom h⟩⟩
  · rcases ht with ⟨hI, rfl⟩ | ⟨hI, rom, hr, rfl⟩
    · exact exec_brk_masked h hI
    · exact exec_brk_entered h hI hr
  · exact storedBytes_frame s.wram (by omega) _ _ _

/-- A return faults where page 1 has fewer than three bytes above `SP` (60 R476). -/
theorem returnFromInterrupt_empty {s : State} (h : 0x01FD ≤ s.cpu.sp.toNat ∧ s.cpu.sp.toNat ≤ 0x01FF) :
    returnFromInterrupt s = .fault (.stackPointerUnderflow 0x0200) := by
  by_cases top : s.cpu.sp = 0x01FF
  · exact bind_of_fault (pop_empty top)
  · have above : 0x01FE ≤ (s.cpu.sp + 1).toNat ∧ (s.cpu.sp + 1).toNat ≤ 0x01FF := by bv_omega
    have first := pop_room (s := s) (by bv_omega)
    exact (bind_of_ok first).trans (bind_of_fault (popWord_empty above))

/-- Settles O33: the rules of a return with a frame on the stack and with less. -/
theorem rtiRestoresTheFrame : Obligations.RtiRestoresTheFrame :=
  ⟨hasForms_of_check (by decide), fun _ ⟨lo, hi⟩ =>
    ⟨fun h => congrArg Result.outcome (returnFromInterrupt_room ⟨lo, h⟩),
      fun h => congrArg Result.outcome (returnFromInterrupt_empty ⟨h, hi⟩)⟩⟩

end Sys2Proof.Machine

/-! PROOFS. The unofficial combined instructions: one access, then the two rules they combine (46 R325 to R332). -/

namespace Sys2Proof.Machine

/-- Settles O34: the rows by the table check, the effects by the rules of a reading and of a storing mnemonic. -/
theorem laxAndSax : Obligations.LaxAndSax :=
  ⟨hasForms_of_check (by decide), hasForms_of_check (by decide), readsThen_of_opOf fun _ => rfl,
    storesByte_of_opOf (source := fun cpu => cpu.a &&& cpu.x) rfl fun _ => rfl⟩

/-- The effect of a read-modify-write mnemonic may be spelled in another way. -/
theorem ModifiesMemory.congr {name : Mnemonic} {result : Byte → Bool → Byte}
    {effect effect' : Byte → State → State} (h : ModifiesMemory name result effect)
    (e : ∀ m w, effect m w = effect' m w) : ModifiesMemory name result effect' := by
  obtain rfl : effect = effect' := funext fun m => funext (e m)
  exact h

/-- Settles O35: the rows by the table check, the effects by the rule of a read-modify-write; SBC of the stored byte as
42 R221 writes it. -/
theorem dcpAndIsb : Obligations.DcpAndIsb := by
  refine ⟨hasForms_of_check (by decide), hasForms_of_check (by decide),
    modifiesMemory_of_late (late := fun r s => compareWith s.cpu.a r s) rfl fun _ => rfl,
    (modifiesMemory_of_late (late := subtractWithBorrow) rfl fun _ => rfl).congr fun m w => ?_⟩
  simp only [subtractWithBorrow, sbcDifference, intCast_carryIn, sbcOverflow_eq_decide]

/-- Of two writes of one flag the later one stands. -/
theorem setFlag_setFlag_same (s : State) (f : Flag) (b c : Bool) : (s.setFlag f b).setFlag f c = s.setFlag f c := by
  have status : withFlag f c (withFlag f b s.cpu.p) = withFlag f c s.cpu.p := status_ext fun g => by
    simp only [flagOf_withFlag]
    by_cases h : g = f
    · rw [if_pos h, if_pos h]
    · rw [if_neg h, if_neg h, if_neg h]
  exact congrArg s.setP status

/-- ADC after a write of C adds that bit, and what was in C before is lost (42 R220, 46 R332). -/
theorem addWithCarry_setC (b : Byte) (c : Bool) (s : State) :
    addWithCarry b (s.setFlag .C c) =
      let sum := s.cpu.a.toNat + b.toNat + (if c then 1 else 0)
      let r := BitVec.ofNat 8 sum
      (((s.setFlag .C (decide (0xFF < sum))).setFlag .V
        (decide ((s.cpu.a ^^^ b) &&& 0x80 = 0 ∧ (s.cpu.a ^^^ r) &&& 0x80 ≠ 0))).setA r).setNZ r := by
  have carry : carryIn (s.setFlag .C c) = if c then 1 else 0 := by
    rw [carryIn_eq, flag_setFlag, if_pos rfl]
  simp only [addWithCarry, adcSum, carry, setFlag_cpu_a, setFlag_setFlag_same, adcOverflow_eq_decide, gt_iff_lt]

/-- A shift of memory whose result is combined with A: A takes the combination, and N and Z follow it (46 R329 to
R331). -/
theorem modifiesMemory_of_shiftCombine {name : Mnemonic} {shift : Byte → Bool → Shifted}
    {result : Byte → Bool → Byte} {out : Byte → Bool} (combine : Byte → Byte → Byte) (hk : kindOf name = .modify)
    (h : ∀ form, opOf name form =
      shiftInstr form shift fun r s => (s.setA (combine s.cpu.a r)).setNZ (combine s.cpu.a r))
    (hs : ∀ m c, shift m c = ⟨result m c, out m⟩) :
    ModifiesMemory name result fun m w =>
      let a := combine w.cpu.a (result m (w.flag .C))
      ((w.setFlag .C (out m)).setA a).setNZ a :=
  modifiesMemory_of_shift (late := fun r s => (s.setA (combine s.cpu.a r)).setNZ (combine s.cpu.a r)) hk h hs

/-- Settles O36: the rows by the table check, the effects by the rule of a shift; RRA adds the rotated byte, as 42 R220
writes it, with the bit shifted out as its carry. -/
theorem sloSreRlaAndRra : Obligations.SloSreRlaAndRra :=
  ⟨hasForms_of_check (by decide), hasForms_of_check (by decide), hasForms_of_check (by decide),
    hasForms_of_check (by decide),
    modifiesMemory_of_shiftCombine (· ||| ·) rfl (fun _ => rfl) shiftLeft_eq,
    modifiesMemory_of_shiftCombine (· ^^^ ·) rfl (fun _ => rfl) shiftRight_eq,
    modifiesMemory_of_shiftCombine (· &&& ·) rfl (fun _ => rfl) rotateLeft_eq,
    (modifiesMemory_of_shift (late := addWithCarry) rfl (fun _ => rfl) rotateRight_eq).congr
      fun _ _ => addWithCarry_setC _ _ _⟩

end Sys2Proof.Machine

/-! PROOFS. The DMA drain (51 R431, R432). -/

namespace Sys2Proof.Machine

/-- Sprite RAM with the requested page copied into it (51 R431). -/
def pageInSpriteRam (s : State) : Memory := (copyToSpriteRam (s.dma.page.toNat * 0x100) 256 s).ppu.spriteRam

theorem byteAt_pageInSpriteRam (s : State) (k : Nat) : byteAt (pageInSpriteRam s) k =
    if k < 256 then byteAt s.wram (s.dma.page.toNat * 0x100 + k) else byteAt s.ppu.spriteRam k :=
  copyToSpriteRam_get _ _ _ _

/-- A request for a page of working RAM. -/
theorem transferIfRequested_page {s : State} (h : s.dma.pending = true) (hp : s.dma.page.toNat < 8) :
    transferIfRequested s = .ok () { s with
      ppu := { s.ppu with spriteRam := pageInSpriteRam s }, dma := { s.dma with pending := false } } := by
  unfold transferIfRequested pageInSpriteRam
  rw [if_pos h, if_neg (Nat.not_le.mpr hp)]
  have frame := copyToSpriteRam_frame (s.dma.page.toNat * 0x100) 256 s
  generalize copyToSpriteRam (s.dma.page.toNat * 0x100) 256 s = t at frame ⊢
  rw [frame]

/-- Settles O50: the copy gives each byte of sprite RAM, and the latch it leaves requests nothing. -/
theorem dmaDrainCopiesThePage : Obligations.DmaDrainCopiesThePage := by
  refine ⟨fun s pending page => ⟨pageInSpriteRam s, transferIfRequested_page pending page, fun k hk => ?_,
    fun k hk => ?_, ?_⟩, fun s => transferIfRequested_fault, fun s => transferIfRequested_idle⟩
  · rw [byteAt_pageInSpriteRam, if_pos hk]
  · rw [byteAt_pageInSpriteRam, if_neg (Nat.not_lt.mpr hk)]
  · rw [transferIfRequested_page pending page, bind_ok]
    exact transferIfRequested_idle rfl

end Sys2Proof.Machine

/-! PROOFS. Drawing passes by a change of the state that leaves what the PPU bus reads (50 R359, R361, R364). -/

namespace Sys2Proof.Machine

section

variable {g : State → State}

/-- A PPU-bus read passes by a change that leaves the three memories and the parameters. -/
theorem commutes_ppuBusRead (hc : ∀ s, (g s).chr = s.chr) (hv : ∀ s, (g s).vram = s.vram)
    (hp : ∀ s, (g s).palette = s.palette) (hm : ∀ s, (g s).config = s.config) (a : Word) :
    Commutes g (ppuBusRead a) := fun s => by
  rw [ppuBusRead_congr (hc s) (hv s) (hp s) (hm s)]
  cases h : ppuBusRead a s with
  | fault f => rfl
  | ok v t => rw [ppuBusRead_state h]; rfl

theorem commutes_forEach {f : Nat → State → Result Unit} (h : ∀ k, Commutes g (f k)) :
    ∀ ks, Commutes g (forEach f ks)
  | [] => commutes_pure
  | k :: ks => commutes_bind (h k) fun _ => commutes_forEach h ks

end

end Sys2Proof.Machine

/-! PROOFS. The image, its opacity bits and the last frame are output: every part of a step passes by them, or ends
alike whatever they are (50 R355, 10 R55, R56). -/

namespace Sys2Proof.Machine

/-- What the PPU draws and nothing reads back: the image, its opacity bits and the frame last rendered. -/
structure Picture where
  image    : Grid Pixel
  bgOpaque : Grid Bool
  frame    : Grid Pixel

/-- The state with another picture. -/
def State.withPicture (p : Picture) (s : State) : State :=
  { s with
    ppu := { s.ppu with image := p.image, bgOpaque := p.bgOpaque }
    render := { s.render with frame := p.frame } }

theorem sameButImage_iff {s t : State} : SameButImage s t ↔ ∃ p, t = s.withPicture p :=
  ⟨fun h => ⟨⟨t.ppu.image, t.ppu.bgOpaque, t.render.frame⟩, h⟩, fun ⟨_, h⟩ => by rw [h]; rfl⟩

section

variable {p : Picture}

/-! Bus accesses (20 R81, R82, R95, R96). -/

theorem commutes_withPicture_ppuBusRead (a : Word) : Commutes (State.withPicture p) (ppuBusRead a) :=
  commutes_ppuBusRead (g := State.withPicture p) (fun _ => rfl) (fun _ => rfl) (fun _ => rfl) (fun _ => rfl) a

theorem commutes_withPicture_ppuBusWrite (a : Word) (v : Byte) :
    Commutes (State.withPicture p) (ppuBusWrite a v) := by
  rw [funext (ppuBusWrite_eq a v)]
  exact commutes_param (p := fun s => ppuCell s.config a) (op := fun c s => c.write v s)
    (fun c => commutes_ite (c := fun s => c.attached s = true) (commutes_ok fun _ => by cases c <;> rfl)
      (commutes_fault fun _ => rfl) fun _ => by cases c <;> rfl)
    fun _ => rfl

theorem commutes_withPicture_ppuPortRead (n : Nat) : Commutes (State.withPicture p) (ppuPortRead n) := by
  unfold ppuPortRead
  split
  · exact fun _ => rfl
  · exact fun _ => rfl
  · exact commutes_param (p := fun s => s.ppu.videoRamAddress)
      (op := fun a s => (ppuBusRead a s).bind fun v s =>
        if ppuAddress a ≥ 0x3F00 then .ok v (vramIncrement s)
        else .ok s.ppu.readBuffer (vramIncrement { s with ppu := { s.ppu with readBuffer := v } }))
      (fun a => commutes_bind (commutes_withPicture_ppuBusRead a) fun _ =>
        commutes_ite (c := fun _ => ppuAddress a ≥ 0x3F00) (fun _ => rfl) (fun _ => rfl) fun _ => .rfl)
      fun _ => rfl
  · exact commutes_pure

theorem commutes_withPicture_ppuPortWrite (n : Nat) (v : Byte) :
    Commutes (State.withPicture p) (ppuPortWrite n v) := by
  unfold ppuPortWrite
  split
  case h_5 =>
    exact commutes_ok fun s => by by_cases h : s.ppu.writeToggle <;> simp [writeScroll, State.withPicture, h]
  case h_6 =>
    exact commutes_ok fun s => by by_cases h : s.ppu.writeToggle <;> simp [writeVramAddress, State.withPicture, h]
  case h_7 =>
    exact commutes_bind (commutes_param (p := fun s => s.ppu.videoRamAddress)
      (commutes_withPicture_ppuBusWrite · v) fun _ => rfl) fun _ => commutes_ok fun _ => rfl
  all_goals exact fun _ => rfl

theorem commutes_withPicture_memRead (a : Word) : Commutes (State.withPicture p) (memRead a) := by
  refine commutes_ite (c := fun _ => a.toNat < 0x2000) (fun _ => rfl) ?_ fun _ => .rfl
  refine commutes_ite (c := fun _ => a.toNat < 0x4000) (commutes_withPicture_ppuPortRead _) ?_ fun _ => .rfl
  refine commutes_ite (c := fun _ => a.toNat = 0x4014) commutes_pure ?_ fun _ => .rfl
  refine commutes_ite (c := fun _ => a.toNat = 0x4016) (fun _ => rfl) ?_ fun _ => .rfl
  refine commutes_ite (c := fun _ => a.toNat = 0x4017) (fun _ => rfl) ?_ fun _ => .rfl
  refine commutes_ite (c := fun _ => a.toNat < 0x8000) commutes_pure ?_ fun _ => .rfl
  refine commutes_ite (c := fun _ => a.toNat < 0x10000) (fun s => ?_) (fun _ => rfl) fun _ => .rfl
  show (match s.config.prgRom with | some rom => _ | none => _) = _
  cases s.config.prgRom <;> rfl

theorem commutes_withPicture_memWrite (a : Word) (v : Byte) : Commutes (State.withPicture p) (memWrite a v) := by
  refine commutes_ite (c := fun _ => a.toNat < 0x2000) (fun _ => rfl) ?_ fun _ => .rfl
  refine commutes_ite (c := fun _ => a.toNat < 0x4000) (commutes_withPicture_ppuPortWrite _ v) ?_ fun _ => .rfl
  refine commutes_ite (c := fun _ => a.toNat = 0x4014) (fun _ => rfl) ?_ fun _ => .rfl
  refine commutes_ite (c := fun _ => a.toNat = 0x4016) (fun _ => rfl) ?_ fun _ => .rfl
  refine commutes_ite (c := fun _ => a.toNat = 0x4017) (fun _ => rfl) ?_ fun _ => .rfl
  refine commutes_ite (c := fun _ => a.toNat < 0x8000) commutes_pure ?_ fun _ => .rfl
  refine commutes_ite (c := fun _ => a.toNat < 0x10000) (fun s => ?_) (fun _ => rfl) fun _ => .rfl
  show (match s.config.prgRom with | some _ => _ | none => _) = _
  cases s.config.prgRom <;> rfl

/-! The operations over memory and registers. -/

theorem commutes_withPicture_fetch : Commutes (State.withPicture p) fetch :=
  commutes_bind (commutes_param (p := fun s => s.cpu.pc) commutes_withPicture_memRead fun _ => rfl) fun _ =>
    commutes_ok fun _ => rfl

theorem commutes_withPicture_fetchWord : Commutes (State.withPicture p) fetchWord :=
  commutes_bind commutes_withPicture_fetch fun _ => commutes_bind commutes_withPicture_fetch fun _ => commutes_pure

theorem commutes_withPicture_readWord (a : Word) : Commutes (State.withPicture p) (readWord a) :=
  commutes_bind (commutes_withPicture_memRead a) fun _ =>
    commutes_bind (commutes_withPicture_memRead _) fun _ => commutes_pure

theorem commutes_withPicture_readPointer (a : Word) : Commutes (State.withPicture p) (readPointer a) :=
  commutes_bind (commutes_withPicture_memRead a) fun _ =>
    commutes_bind
      (commutes_param (p := fun s => pointerSuccessor s.config a) commutes_withPicture_memRead fun _ => rfl)
      fun _ => commutes_pure

theorem commutes_withPicture_push (v : Byte) : Commutes (State.withPicture p) (push v) :=
  commutes_bind
    (commutes_param (p := fun s => stackAddress s.cpu.sp) (commutes_withPicture_memWrite · v) fun _ => rfl)
    fun _ => commutes_ite (c := fun s => (s.cpu.sp.toNat : Int) - 1 < 0x0100) (commutes_fault fun _ => rfl)
      (commutes_ok fun _ => rfl) fun _ => .rfl

theorem commutes_withPicture_pop : Commutes (State.withPicture p) pop :=
  commutes_ite (c := fun s => s.cpu.sp.toNat + 1 > 0x01FF) (commutes_fault fun _ => rfl)
    (commutes_after (op := fun t => memRead (stackAddress t.cpu.sp) t)
      (commutes_param (p := fun s => stackAddress s.cpu.sp) commutes_withPicture_memRead fun _ => rfl) fun _ => rfl)
    fun _ => .rfl

theorem commutes_withPicture_pushWord (w : Word) : Commutes (State.withPicture p) (pushWord w) :=
  commutes_bind (commutes_withPicture_push _) fun _ => commutes_withPicture_push _

theorem commutes_withPicture_popWord : Commutes (State.withPicture p) popWord :=
  commutes_bind commutes_withPicture_pop fun _ => commutes_bind commutes_withPicture_pop fun _ => commutes_pure

theorem commutes_withPicture_pushFrame : Commutes (State.withPicture p) pushFrame :=
  commutes_bind (commutes_param (p := fun s => s.cpu.pc) commutes_withPicture_pushWord fun _ => rfl) fun _ =>
    commutes_param (p := fun s => s.cpu.p) commutes_withPicture_push fun _ => rfl

theorem commutes_withPicture_takeInterrupt (vector : Word) :
    Commutes (State.withPicture p) (takeInterrupt vector) :=
  commutes_bind (commutes_after commutes_withPicture_pushFrame fun _ => rfl) fun _ =>
    commutes_bind (commutes_after (commutes_withPicture_readWord vector) fun _ => rfl) fun _ =>
      commutes_ok fun _ => rfl

theorem commutes_withPicture_returnFromInterrupt : Commutes (State.withPicture p) returnFromInterrupt :=
  commutes_bind commutes_withPicture_pop fun _ =>
    commutes_bind (commutes_after commutes_withPicture_popWord fun _ => rfl) fun _ => commutes_ok fun _ => rfl

theorem commutes_withPicture_cpuReset : Commutes (State.withPicture p) cpuReset :=
  commutes_after (op := fun t => (readWord resetVector t).bind fun target s => .ok () (s.setPc target))
    (commutes_bind (commutes_withPicture_readWord resetVector) fun _ => commutes_ok fun _ => rfl) fun _ => rfl

/-! Operands and the shapes of an operation (40 R167, R181). A register effect passes by another picture by
computation. -/

theorem commutes_withPicture_resolve (form : Form) : Commutes (State.withPicture p) (resolve form) := by
  cases form with
  | indirectAbsolute a => exact commutes_bind (commutes_withPicture_readPointer a) fun _ => commutes_pure
  | preIndexedIndirect d =>
    exact commutes_bind (commutes_param (p := fun s => zeroPageAddress (d + s.cpu.x))
      commutes_withPicture_readPointer fun _ => rfl) fun _ => commutes_pure
  | postIndexedIndirect d =>
    exact commutes_bind (commutes_withPicture_readPointer _) fun _ _ => rfl
  | _ => exact fun _ => rfl

theorem commutes_withPicture_load (op : Operand) : Commutes (State.withPicture p) (load op) := by
  cases op with
  | address a => exact commutes_withPicture_memRead a
  | _ => exact fun _ => rfl

theorem commutes_withPicture_storeBack (op : Operand) (v : Byte) :
    Commutes (State.withPicture p) (storeBack op v) := by
  cases op with
  | address a => exact commutes_withPicture_memWrite a v
  | _ => exact fun _ => rfl

theorem commutes_withPicture_readInstr (form : Form) {effect : Byte → State → State}
    (h : ∀ m s, effect m (s.withPicture p) = (effect m s).withPicture p) :
    Commutes (State.withPicture p) (readInstr form effect) :=
  commutes_bind (commutes_bind (commutes_withPicture_resolve form) commutes_withPicture_load) fun m =>
    commutes_ok (h m)

theorem commutes_withPicture_storeInstr (form : Form) {source : State → Byte}
    (h : ∀ s, source (s.withPicture p) = source s) : Commutes (State.withPicture p) (storeInstr form source) :=
  commutes_bind (commutes_withPicture_resolve form) fun op =>
    commutes_param (p := source) (commutes_withPicture_storeBack op) h

theorem commutes_withPicture_modifyInstr (form : Form) {result : Byte → State → Byte}
    {early late : Byte → State → State} (hr : ∀ m s, result m (s.withPicture p) = result m s)
    (he : ∀ m s, early m (s.withPicture p) = (early m s).withPicture p)
    (hl : ∀ r s, late r (s.withPicture p) = (late r s).withPicture p) :
    Commutes (State.withPicture p) (modifyInstr form result early late) :=
  commutes_bind (commutes_withPicture_resolve form) fun op =>
    commutes_bind (commutes_withPicture_load op) fun m =>
      commutes_param (p := result m) (op := fun r s => (storeBack op r (early m s)).bind fun _ t => .ok () (late r t))
        (fun r => commutes_bind (commutes_after (commutes_withPicture_storeBack op r) (he m))
          fun _ => commutes_ok (hl r)) (hr m)

theorem commutes_withPicture_shiftInstr (form : Form) (shift : Byte → Bool → Shifted)
    {late : Byte → State → State} (hl : ∀ r s, late r (s.withPicture p) = (late r s).withPicture p) :
    Commutes (State.withPicture p) (shiftInstr form shift late) :=
  commutes_withPicture_modifyInstr form (fun _ _ => rfl) (fun _ _ => rfl) hl

theorem commutes_withPicture_jumpInstr (form : Form) : Commutes (State.withPicture p) (jumpInstr form) :=
  commutes_bind (commutes_withPicture_resolve form) fun op => by
    cases op with
    | address => exact commutes_ok fun _ => rfl
    | _ => exact commutes_pure

theorem commutes_withPicture_branchInstr (disp : Int) {taken : State → Bool}
    (h : ∀ s, taken (s.withPicture p) = taken s) : Commutes (State.withPicture p) (branchInstr disp taken) :=
  commutes_ite (c := fun s => taken s = true) (commutes_withPicture_jumpInstr _) commutes_pure fun s => by rw [h]

theorem commutes_withPicture_brk : Commutes (State.withPicture p) opBrk :=
  commutes_param (p := fun s => s.flag .I)
    (op := fun masked s => (pushFrame ((s.setPc (s.cpu.pc + 1)).setFlag .B true)).bind fun _ s =>
      if masked then .ok () (s.setFlag .I true)
      else (readWord irqVector s).bind fun target s => .ok () ((s.setPc target).setFlag .I true))
    (fun masked => commutes_bind (commutes_after commutes_withPicture_pushFrame fun _ => rfl) fun _ =>
      commutes_ite (c := fun _ => masked = true) (commutes_ok fun _ => rfl)
        (commutes_bind (commutes_withPicture_readWord irqVector) fun _ => commutes_ok fun _ => rfl) fun _ => .rfl)
    fun _ => rfl

/-- No operation of a mnemonic sees or touches the picture. -/
theorem commutes_withPicture_opOf (name : Mnemonic) (form : Form) :
    Commutes (State.withPicture p) (opOf name form) := by
  cases name
  case LDA | LDX | LDY | ADC | SBC | CMP | CPX | CPY | AND | ORA | EOR | BIT | LAX =>
    exact commutes_withPicture_readInstr form fun _ _ => rfl
  case STA | STX | STY | SAX => exact commutes_withPicture_storeInstr form fun _ => rfl
  case INC | DEC =>
    exact commutes_withPicture_modifyInstr form (late := fun r s => s.setNZ r) (fun _ _ => rfl) (fun _ _ => rfl)
      fun _ _ => rfl
  case DCP =>
    exact commutes_withPicture_modifyInstr form (late := fun r s => compareWith s.cpu.a r s) (fun _ _ => rfl)
      (fun _ _ => rfl) fun _ _ => rfl
  case ISB => exact commutes_withPicture_modifyInstr form (fun _ _ => rfl) (fun _ _ => rfl) fun _ _ => rfl
  case ASL | LSR | ROL | ROR =>
    exact commutes_withPicture_shiftInstr form _ (late := fun r s => s.setNZ r) fun _ _ => rfl
  case SLO =>
    exact commutes_withPicture_shiftInstr form _ (late := fun r s => (s.setA (s.cpu.a ||| r)).setNZ (s.cpu.a ||| r))
      fun _ _ => rfl
  case SRE =>
    exact commutes_withPicture_shiftInstr form _ (late := fun r s => (s.setA (s.cpu.a ^^^ r)).setNZ (s.cpu.a ^^^ r))
      fun _ _ => rfl
  case RLA =>
    exact commutes_withPicture_shiftInstr form _ (late := fun r s => (s.setA (s.cpu.a &&& r)).setNZ (s.cpu.a &&& r))
      fun _ _ => rfl
  case RRA => exact commutes_withPicture_shiftInstr form _ fun _ _ => rfl
  case JMP => exact commutes_withPicture_jumpInstr form
  case BCC | BCS | BEQ | BNE | BMI | BPL | BVC | BVS =>
    cases form with
    | relative disp => exact commutes_withPicture_branchInstr disp fun _ => rfl
    | _ => exact commutes_pure
  case TAX | TAY | TXA | TYA | TSX | TXS | INX | INY | DEX | DEY | CLC | SEC | CLI | SEI | CLV | CLD | SED | NOP =>
    exact commutes_ok fun _ => rfl
  case JSR =>
    cases form with
    | absolute a =>
      exact commutes_bind (commutes_param (p := fun s => s.cpu.pc - 1) commutes_withPicture_pushWord fun _ => rfl)
        fun _ => commutes_ok fun _ => rfl
    | _ => exact commutes_pure
  case RTS => exact commutes_bind commutes_withPicture_popWord fun _ => commutes_ok fun _ => rfl
  case PHA => exact commutes_param (p := fun s => s.cpu.a) commutes_withPicture_push fun _ => rfl
  case PHP =>
    exact commutes_after (f := fun s => s.setFlag .B true) (op := fun s => push s.cpu.p s)
      (commutes_param (p := fun s => s.cpu.p) commutes_withPicture_push fun _ => rfl) fun _ => rfl
  case PLA | PLP => exact commutes_bind commutes_withPicture_pop fun _ => commutes_ok fun _ => rfl
  case BRK => exact commutes_withPicture_brk
  case RTI => exact commutes_withPicture_returnFromInterrupt

/-! The parts of a step before the instruction (51 R440). -/

theorem commutes_withPicture_fetchInstr : Commutes (State.withPicture p) fetchInstr :=
  commutes_bind commutes_withPicture_fetch fun opcode => by
    cases opcodeEntry opcode with
    | none => exact commutes_fault fun _ => rfl
    | some template =>
      cases template with
      | none => exact commutes_pure
      | byte => exact commutes_bind commutes_withPicture_fetch fun _ => commutes_pure
      | word => exact commutes_bind commutes_withPicture_fetchWord fun _ => commutes_pure

theorem commutes_withPicture_hostActions : ∀ hs, Commutes (State.withPicture p) (hostActions hs)
  | [] => commutes_pure
  | .irqAssert :: hs => commutes_after (f := fun s => { s with int := { s.int with irq := true } })
      (commutes_withPicture_hostActions hs) fun _ => rfl
  | .cpuReset :: hs => commutes_bind commutes_withPicture_cpuReset fun _ => commutes_withPicture_hostActions hs

theorem commutes_withPicture_hostPart : Commutes (State.withPicture p) hostPart := fun s => by
  show (match s.schedule with | [] => _ | hs :: rest => _) = Result.mapState _ (hostPart s)
  unfold hostPart
  cases s.schedule with
  | nil => rfl
  | cons hs rest => exact commutes_withPicture_hostActions hs { s with schedule := rest }

theorem copyToSpriteRam_withPicture (base : Nat) : ∀ (n : Nat) (s : State),
    copyToSpriteRam base n (s.withPicture p) = (copyToSpriteRam base n s).withPicture p
  | 0, _ => rfl
  | n + 1, s => by
    unfold copyToSpriteRam
    rw [copyToSpriteRam_withPicture base n s]
    rfl

theorem withPicture_dma (s : State) : (s.withPicture p).dma = s.dma := rfl

theorem withPicture_spriteRam (s : State) : (s.withPicture p).ppu.spriteRam = s.ppu.spriteRam := rfl

theorem pageInSpriteRam_withPicture (s : State) : pageInSpriteRam (s.withPicture p) = pageInSpriteRam s := by
  unfold pageInSpriteRam
  rw [copyToSpriteRam_withPicture, withPicture_dma, withPicture_spriteRam]

theorem commutes_withPicture_transferIfRequested : Commutes (State.withPicture p) transferIfRequested := fun s => by
  cases pending : s.dma.pending with
  | false => rw [transferIfRequested_idle pending, transferIfRequested_idle (s := s.withPicture p) pending, mapState_ok]
  | true =>
    by_cases page : s.dma.page.toNat < 8
    · rw [transferIfRequested_page pending page, transferIfRequested_page (s := s.withPicture p) pending page,
        pageInSpriteRam_withPicture]
      rfl
    · rw [transferIfRequested_fault pending (Nat.le_of_not_lt page),
        transferIfRequested_fault (s := s.withPicture p) pending (Nat.le_of_not_lt page)]
      rfl

theorem commutes_withPicture_handleInterrupts : Commutes (State.withPicture p) handleInterrupts :=
  commutes_ite (c := fun s => s.int.nmi = true)
    (commutes_after (f := fun s => { s with int := { s.int with nmi := false } })
      (commutes_withPicture_takeInterrupt nmiVector) fun _ => rfl)
    (commutes_ite (c := fun s => (s.int.irq && !s.flag .I) = true)
      (commutes_after (f := fun s => { s with int := { s.int with irq := false } })
        (commutes_withPicture_takeInterrupt irqVector) fun _ => rfl)
      commutes_pure fun _ => .rfl)
    fun _ => .rfl

theorem commutes_withPicture_prepare : Commutes (State.withPicture p) prepare :=
  commutes_bind
    (commutes_bind commutes_withPicture_hostPart fun _ =>
      commutes_bind commutes_withPicture_transferIfRequested fun _ => commutes_withPicture_handleInterrupts)
    fun _ => commutes_withPicture_fetchInstr

end

/-! Drawing ends alike on two pictures, though it does not leave them alike. -/

/-- Two results that end alike: the same fault, or the same value and states that differ in the picture only. -/
inductive Result.Alike {α : Type} : Result α → Result α → Prop
  | ok {v : α} {s t : State} (h : SameButImage s t) : Alike (.ok v s) (.ok v t)
  | fault {f : Fault} : Alike (.fault f) (.fault f)

/-- The operation ends alike on every two pictures. -/
def EndsAlike {α : Type} (op : State → Result α) : Prop := ∀ p s, (op s).Alike (op (s.withPicture p))

theorem Result.Alike.outcome {r q : Result Unit} (h : r.Alike q) :
    OutcomesAgree SameButImage r.outcome q.outcome := by
  cases h with
  | ok h => exact h
  | fault => exact rfl

section

variable {α β : Type}

theorem endsAlike_of_commutes {op : State → Result α} (h : ∀ p, Commutes (State.withPicture p) op) :
    EndsAlike op := fun p s => by
  rw [h p s]
  cases op s with
  | ok v t => exact .ok (sameButImage_iff.mpr ⟨p, rfl⟩)
  | fault f => exact .fault

theorem endsAlike_ok {v : α} {f : State → State} (h : ∀ p s, SameButImage (f s) (f (s.withPicture p))) :
    EndsAlike fun s => .ok v (f s) := fun p s => .ok (h p s)

theorem endsAlike_bind {op : State → Result α} {k : α → State → Result β} (h : EndsAlike op)
    (hk : ∀ v, EndsAlike (k v)) : EndsAlike fun s => (op s).bind k := fun p s => by
  show ((op s).bind k).Alike ((op (s.withPicture p)).bind k)
  have first := h p s
  revert first
  generalize op s = r, op (s.withPicture p) = q
  rintro (same | _)
  · obtain ⟨p', rfl⟩ := sameButImage_iff.mp same
    exact hk _ p' _
  · exact .fault

theorem endsAlike_param {f : State → β} {op : β → State → Result α} (h : ∀ b, EndsAlike (op b))
    (hf : ∀ p s, f (s.withPicture p) = f s) : EndsAlike fun s => op (f s) s := fun p s => by
  dsimp only
  rw [hf]
  exact h _ p s

theorem endsAlike_after {op : State → Result α} {f : State → State} (h : EndsAlike op)
    (hf : ∀ p s, f (s.withPicture p) = (f s).withPicture p) : EndsAlike fun s => op (f s) := fun p s => by
  dsimp only
  rw [hf]
  exact h p _

theorem endsAlike_ite {c : State → Prop} [∀ s, Decidable (c s)] {f k : State → Result α} (hf : EndsAlike f)
    (hk : EndsAlike k) (hc : ∀ p s, c (s.withPicture p) ↔ c s) : EndsAlike fun s => if c s then f s else k s :=
  fun p s => by
  dsimp only
  by_cases h : c s
  · rw [if_pos h, if_pos ((hc p s).mpr h)]; exact hf p s
  · rw [if_neg h, if_neg (h ∘ (hc p s).mp)]; exact hk p s

theorem endsAlike_forEach {f : Nat → State → Result Unit} (h : ∀ k, EndsAlike (f k)) :
    ∀ ks, EndsAlike (forEach f ks)
  | [] => endsAlike_ok fun p _ => sameButImage_iff.mpr ⟨p, rfl⟩
  | k :: ks => endsAlike_bind (h k) fun _ => endsAlike_forEach h ks

end

theorem endsAlike_ppuBusRead (a : Word) : EndsAlike (ppuBusRead a) :=
  endsAlike_of_commutes fun _ => commutes_withPicture_ppuBusRead a

theorem endsAlike_pure {α : Type} {v : α} : EndsAlike fun s => .ok v s :=
  endsAlike_of_commutes fun _ => commutes_pure

theorem endsAlike_colour (index : Nat) : EndsAlike (colour index) :=
  endsAlike_bind (endsAlike_ppuBusRead _) fun _ => endsAlike_pure

theorem endsAlike_patternRow (bank : Bool) (tile : Byte) (row : Nat) : EndsAlike (patternRow bank tile row) :=
  endsAlike_bind (endsAlike_ppuBusRead _) fun _ => endsAlike_bind (endsAlike_ppuBusRead _) fun _ => endsAlike_pure

/-- Drawing writes the picture only, so what it has drawn on does not matter. -/
theorem Drawn.sameButImage {s s' t : State} {p : Picture} (h : Drawn s s') (k : Drawn (s.withPicture p) t) :
    SameButImage s' t := by
  unfold SameButImage
  rw [h, k]
  rfl

/-- One background pixel (50 R355, R362). -/
theorem endsAlike_groupPixel (index y x : Nat) (shows : Bool) :
    EndsAlike fun s => (colour index s).bind fun c s => .ok () (setOpaque y x shows (setPixel y x c s)) :=
  endsAlike_bind (endsAlike_colour index) fun _ => endsAlike_ok fun _ _ =>
    Drawn.sameButImage ((drawn_setPixel _ _ _ _).trans (drawn_setOpaque _ _ _ _))
      ((drawn_setPixel _ _ _ _).trans (drawn_setOpaque _ _ _ _))

theorem endsAlike_backgroundGroup (x y : Nat) : EndsAlike (drawBackgroundGroup x y) := by
  refine endsAlike_ite (c := fun s => s.ppu.mask.getLsbD 3) ?_
    (endsAlike_forEach (fun i => endsAlike_groupPixel 0 y (x + i) false) _) fun _ _ => .rfl
  refine endsAlike_param (f := fun s => bgCoordinates s.ppu x y)
    (op := fun place s =>
      (ppuBusRead (BitVec.ofNat 16 (nameAddress place)) s).bind fun tile s =>
      (attributeSelector place s).bind fun sel s =>
      (patternRow (s.ppu.control.getLsbD 4) tile place.fy s).bind fun row s =>
      forEach (fun i s => (colour (4 * sel + pixelValue row i) s).bind fun c s =>
        .ok () (setOpaque y (x + i) (pixelValue row i != 0) (setPixel y (x + i) c s))) (List.range 8) s)
    (fun place => ?_) fun _ _ => rfl
  refine endsAlike_bind (endsAlike_ppuBusRead _) fun tile => ?_
  refine endsAlike_bind (endsAlike_bind (endsAlike_ppuBusRead _) fun _ => endsAlike_pure) fun sel => ?_
  refine endsAlike_bind (endsAlike_param (f := fun s => s.ppu.control.getLsbD 4)
    (endsAlike_patternRow · tile place.fy) fun _ _ => rfl) fun row => ?_
  exact endsAlike_forEach (fun i => endsAlike_groupPixel _ y (x + i) _) _

theorem endsAlike_backgroundPart : EndsAlike backgroundPart :=
  endsAlike_ite (c := fun s => s.ppu.line < 240 ∧ s.ppu.cycle < 256 ∧ s.ppu.cycle % 8 = 0)
    (endsAlike_param (f := fun s => s.ppu.cycle) (op := fun x s => drawBackgroundGroup x s.ppu.line s)
      (fun x => endsAlike_param (f := fun s => s.ppu.line) (endsAlike_backgroundGroup x) fun _ _ => rfl)
      fun _ _ => rfl)
    endsAlike_pure fun _ _ => .rfl

theorem pixelValue_lt (row : PlaneRow) (i : Nat) : pixelValue row i < 4 := by
  have h1 := (row.plane1.getLsbD (7 - i)).toNat_lt
  have h0 := (row.plane0.getLsbD (7 - i)).toNat_lt
  unfold pixelValue
  omega

/-- A palette index names a palette cell, so its colour can be read whatever is attached (20 R100, 50 R361). -/
theorem colour_ok {index : Nat} (h : index < 0x100) (s : State) : ∃ c, colour index s = .ok c s := by
  have lo : 0x3F00 ≤ ppuAddress (BitVec.ofNat 16 (0x3F00 + index)) := by
    unfold ppuAddress
    rw [BitVec.toNat_ofNat]
    omega
  unfold colour
  rw [ppuBusRead_eq, ppuCell_palette lo]
  exact ⟨_, rfl⟩

/-- A sprite pixel can always be drawn, and whether it is hidden shows in the image only (50 R364, R365). -/
theorem drawSpritePixel_ok (rec : SpriteRecord) (row : PlaneRow) (py c : Nat) (s : State) :
    ∃ t, drawSpritePixel rec row py c s = .ok () t := by
  have small := pixelValue_lt row (if rec.attr.getLsbD 6 then 7 - c else c)
  unfold drawSpritePixel
  generalize pixelValue row (if rec.attr.getLsbD 6 then 7 - c else c) = pix at small
  dsimp only
  obtain ⟨k, hk⟩ := colour_ok (index := 0x10 + 4 * (rec.attr.toNat % 4) + pix) (by omega) s
  rw [hk, bind_ok]
  split
  · exact ⟨_, rfl⟩
  split
  · exact ⟨_, rfl⟩
  split <;> exact ⟨_, rfl⟩

theorem endsAlike_spritePixel (rec : SpriteRecord) (row : PlaneRow) (py c : Nat) :
    EndsAlike (drawSpritePixel rec row py c) := fun p s => by
  obtain ⟨s', hs⟩ := drawSpritePixel_ok rec row py c s
  obtain ⟨t, ht⟩ := drawSpritePixel_ok rec row py c (s.withPicture p)
  rw [hs, ht]
  exact .ok (((draws_spritePixel rec row py c).1 _ _ _ hs).sameButImage ((draws_spritePixel rec row py c).1 _ _ _ ht))

theorem endsAlike_spriteRow (rec : SpriteRecord) (r : Nat) : EndsAlike (drawSpriteRow rec r) :=
  endsAlike_ite (c := fun _ => rec.y + r ≥ 240) endsAlike_pure
    (endsAlike_bind (endsAlike_param (f := fun s => s.ppu.control.getLsbD 3)
      (endsAlike_patternRow · rec.tile (if rec.attr.getLsbD 7 then 7 - r else r)) fun _ _ => rfl) fun row =>
      endsAlike_forEach (endsAlike_spritePixel rec row _) _)
    fun _ _ => .rfl

theorem endsAlike_sprites : EndsAlike drawSprites :=
  endsAlike_ite (c := fun s => s.ppu.mask.getLsbD 4)
    (endsAlike_forEach (fun n => endsAlike_param (f := fun s => spriteRecord s.ppu.spriteRam n)
      (fun rec => endsAlike_forEach (endsAlike_spriteRow rec) _) fun _ _ => rfl) _)
    endsAlike_pure fun _ _ => .rfl

/-- The frame handed to the renderer is the image, and both are of the picture (50 R353). -/
theorem endsAlike_frameEnd : EndsAlike frameEnd :=
  endsAlike_bind endsAlike_sprites fun _ => endsAlike_ok fun _ _ => rfl

theorem endsAlike_advance : EndsAlike advance :=
  endsAlike_ite (c := fun s => s.ppu.cycle < 340) (endsAlike_ok fun _ _ => rfl)
    (endsAlike_ite (c := fun s => s.ppu.line < 261)
      (endsAlike_after (f := fun s => { s with ppu := { s.ppu with cycle := 0, line := s.ppu.line + 1 } })
        (op := fun t => .ok () (if t.ppu.line = 240 then vblankStart t else t))
        (endsAlike_ok fun p s => by
          show SameButImage _ (if s.ppu.line = 240 then _ else _)
          split <;> exact sameButImage_iff.mpr ⟨p, rfl⟩)
        fun _ _ => rfl)
      (endsAlike_after (f := fun s => { s with ppu := { s.ppu with cycle := 0 } }) endsAlike_frameEnd fun _ _ => rfl)
      fun _ _ => .rfl)
    fun _ _ => .rfl

theorem spriteZeroTest_withPicture (p : Picture) (s : State) :
    spriteZeroTest (s.withPicture p) = (spriteZeroTest s).withPicture p := by
  rw [spriteZeroTest_eq, spriteZeroTest_eq]
  rfl

theorem endsAlike_ppuStep : EndsAlike ppuStep :=
  endsAlike_bind endsAlike_backgroundPart fun _ => endsAlike_after endsAlike_advance spriteZeroTest_withPicture

theorem endsAlike_ppuSteps : ∀ n, EndsAlike (ppuSteps n)
  | 0 => endsAlike_pure
  | n + 1 => endsAlike_bind endsAlike_ppuStep fun _ => endsAlike_ppuSteps n

theorem endsAlike_ppuPart (i : Instr) : EndsAlike (ppuPart i) :=
  endsAlike_param (f := fun s => 3 * cyclesOf s.config i) endsAlike_ppuSteps fun _ _ => rfl

/-- Settles O57: a faulted machine stays, and a step is fetch, instruction and PPU, each of which ends alike. -/
theorem imageFeedsNothingBack : Obligations.ImageFeedsNothingBack := fun s t same => by
  obtain ⟨p, rfl⟩ := sameButImage_iff.mp same
  cases hf : s.fault with
  | some f =>
    have stopped : ∀ u : State, u.fault = some f → step u = .fault f := fun u hu => by simp only [step, hu]
    rw [stopped s hf, stopped (s.withPicture p) hf]
    rfl
  | none =>
    rw [step_eq_outcome hf, step_eq_outcome (s := s.withPicture p) hf]
    have parts : EndsAlike fun s =>
        (prepare s).bind fun i t => (opOf i.row.name (formOf i) t).bind fun _ u => ppuPart i u :=
      endsAlike_bind (endsAlike_of_commutes fun _ => commutes_withPicture_prepare) fun i =>
        endsAlike_bind (endsAlike_of_commutes fun _ => commutes_withPicture_opOf _ _) fun _ => endsAlike_ppuPart i
    exact (parts p s).outcome

end Sys2Proof.Machine

/-! PROOFS. The ports of the PPU, one by one (50 R370 to R384). -/

namespace Sys2Proof.Machine

/-- A port-7 read: in the palette range the byte itself, elsewhere the buffer, which it refills (50 R382). -/
theorem readVramData_ok {s : State} {v : Byte} (h : ppuBusRead s.ppu.videoRamAddress s = .ok v s) :
    readVramData s =
      if 0x3F00 ≤ ppuAddress s.ppu.videoRamAddress then .ok v (vramIncrement s)
      else .ok s.ppu.readBuffer (vramIncrement { s with ppu := { s.ppu with readBuffer := v } }) := bind_of_ok h

theorem ppuBusRead_absent {a : Word} {s : State} (ha : ppuAddress a < 0x2000) (hc : s.chr = none) :
    ppuBusRead a s = .fault (.resourceNotConnected .characterMemory) := by
  rw [ppuBusRead_eq]
  exact PpuCell.read_eq_fault.mpr ((ppuCell_attached_eq_false hc).mpr ha)

theorem ppuBusWrite_absent {a : Word} {v : Byte} {s : State} (ha : ppuAddress a < 0x2000) (hc : s.chr = none) :
    ppuBusWrite a v s = .fault (.resourceNotConnected .characterMemory) := by
  rw [ppuBusWrite_eq]
  exact PpuCell.write_eq_fault.mpr ((ppuCell_attached_eq_false hc).mpr ha)

/-- Settles O43: each port by its number. -/
theorem ppuPortReads : Obligations.PpuPortReads := fun a s lo hi => by
  rw [memRead_port ⟨lo, hi⟩]
  refine ⟨fun h => ?_, fun h => ?_, fun v h hv => ?_, fun h ha hc => ?_, fun h => ?_⟩
  · rw [h]; rfl
  · rw [h]; rfl
  · rw [h]; exact readVramData_ok hv
  · rw [h]; exact bind_of_fault (ppuBusRead_absent ha hc)
  · simp only [List.mem_cons, List.not_mem_nil, or_false] at h
    rcases h with h | h | h | h | h <;> rw [h] <;> rfl

theorem writeScroll_eq (v : Byte) (s : State) : writeScroll v s = { s with ppu := { s.ppu with
    scrollX := if s.ppu.writeToggle then s.ppu.scrollX else v
    scrollY := if s.ppu.writeToggle then v else s.ppu.scrollY
    writeToggle := !s.ppu.writeToggle } } := by
  unfold writeScroll
  split <;> simp [*]

/-- A word with another low byte. -/
theorem and_highByte_or_low (w : Word) (v : Byte) :
    (w &&& 0xFF00) ||| v.setWidth 16 = wordOfBytes v (highByte w) := by
  refine BitVec.eq_of_getLsbD_eq fun i hi => ?_
  have masks : ∀ j, j < 16 → (0xFF00 : Word).getLsbD j = decide (8 ≤ j) := by decide
  have mask := masks i hi
  simp only [wordOfBytes, highByte, BitVec.getLsbD_or, BitVec.getLsbD_and, BitVec.getLsbD_setWidth,
    BitVec.getLsbD_append, BitVec.getLsbD_extractLsb', mask]
  by_cases low : i < 8
  · simp [low, hi, Nat.not_le.mpr low]
  · simp [low, show 8 ≤ i by omega, show i - 8 < 8 by omega]

theorem shiftLeft_eq_wordOfBytes (v : Byte) : v.setWidth 16 <<< 8 = wordOfBytes 0x00 v := by
  refine BitVec.eq_of_toNat_eq ?_
  have hv := v.isLt
  have zero : (0x00 : Byte).toNat = 0 := rfl
  rw [toNat_wordOfBytes, BitVec.toNat_shiftLeft, BitVec.toNat_setWidth, Nat.shiftLeft_eq, zero]
  omega

theorem writeVramAddress_eq (v : Byte) (s : State) : writeVramAddress v s = { s with ppu := { s.ppu with
    videoRamAddress :=
      if s.ppu.writeToggle then wordOfBytes v (highByte s.ppu.videoRamAddress) else wordOfBytes 0x00 v
    writeToggle := !s.ppu.writeToggle } } := by
  unfold writeVramAddress
  rw [and_highByte_or_low, shiftLeft_eq_wordOfBytes]
  split <;> simp [*]

/-- A port-7 write stores through the PPU bus, which leaves the registers for the increment (50 R381, R383). -/
theorem writeVramData_ok {v : Byte} {s t : State} (h : ppuBusWrite s.ppu.videoRamAddress v s = .ok () t) :
    writeVramData v s = .ok () { t with ppu := { s.ppu with
      videoRamAddress := s.ppu.videoRamAddress + (if s.ppu.control.getLsbD 2 then 32 else 1) } } := by
  have ppu : t.ppu = s.ppu := by rw [(ppuBusWrite_state h).1]
  rw [← ppu]
  exact bind_of_ok h

/-- Settles O44: each port by its number. -/
theorem ppuPortWrites : Obligations.PpuPortWrites := fun a v s lo hi => by
  rw [memWrite_port ⟨lo, hi⟩]
  refine ⟨fun h => ?_, fun h => ?_, fun h => ?_, fun h => ?_,
    fun h => ⟨setByte s.ppu.spriteRam s.ppu.spriteRamAddress.toNat v, ?_, ?_⟩, fun h => ?_, fun h => ?_,
    fun t h ht => ?_, fun h ha hc => ?_⟩
  · rw [h]; rfl
  · rw [h]; rfl
  · rw [h]; rfl
  · rw [h]; rfl
  · rw [h]; rfl
  · exact (storedBytes_refl _).setByte rfl v
  · rw [h, ← writeScroll_eq]; rfl
  · rw [h, ← writeVramAddress_eq]; rfl
  · rw [h]; exact writeVramData_ok ht
  · rw [h]; exact bind_of_fault (ppuBusWrite_absent ha hc)

end Sys2Proof.Machine

/-! PROOFS. The keypads (51 R435 to R437). -/

namespace Sys2Proof.Machine

/-- Bit `cursor` of the latched byte, as the byte a read returns (51 R436). -/
theorem keypadBit_eq (pad : Keypad) :
    keypadBit pad = if pad.latched.getLsbD pad.cursor then 0x01 else 0x00 := by
  refine BitVec.eq_of_getLsbD_eq fun i hi => ?_
  unfold keypadBit
  cases h : pad.latched.getLsbD pad.cursor <;> cases i <;> simp [h]

theorem keypadWrite_capture {v : Byte} (h : v.getLsbD 0 = true) (k : Nat) (pad : Keypad) :
    keypadWrite k v pad = { pad with capturing := true } := if_pos h

/-- Bit 0 clear latches the host's next byte (51 R435, R437). -/
theorem keypadWrite_latch {v b : Byte} {rest : List Byte} {pad : Keypad} (h : v.getLsbD 0 = false)
    (hi : pad.inputs = b :: rest) (k : Nat) : keypadWrite k v pad =
      { capturing := false, latched := b, cursor := 0, inputs := rest, draws := pad.draws + 1 } := by
  simp only [keypadWrite, keypadDraw, h, hi, Bool.false_eq_true, if_false]

theorem memWrite_keypad1 (v : Byte) (s : State) :
    memWrite 0x4016 v s = .ok () { s with keypad1 := keypadWrite 1 v s.keypad1 } := rfl

theorem memWrite_keypad2 (v : Byte) (s : State) :
    memWrite 0x4017 v s = .ok () { s with keypad2 := keypadWrite 2 v s.keypad2 } := rfl

/-- Reads of a port that reads as a keypad does, of a field of the state: the bits from the cursor on (51 R436). -/
theorem readBytes_keypad {a : Word} {pad : State → Keypad} {put : Keypad → State → State}
    (read : ∀ s, memRead a s = .ok (keypadBit (pad s)) (put (keypadAdvance (pad s)) s))
    (put_pad : ∀ s, put (pad s) s = s) (pad_put : ∀ k s, pad (put k s) = k)
    (put_put : ∀ j k s, put j (put k s) = put j s) :
    ∀ (n : Nat) (s : State), (pad s).cursor < 8 →
    readBytes a n s = .ok ((List.range n).map fun j =>
        if (pad s).latched.getLsbD (((pad s).cursor + j) % 8) then 0x01 else 0x00)
      (put { pad s with cursor := ((pad s).cursor + n) % 8 } s)
  | 0, s, h => by
    rw [Nat.add_zero, Nat.mod_eq_of_lt h, put_pad]
    rfl
  | n + 1, s, h => by
    have rest := readBytes_keypad read put_pad pad_put put_put n (put (keypadAdvance (pad s)) s)
      (by rw [pad_put]; exact Nat.mod_lt _ (by decide))
    unfold readBytes
    rw [read, bind_ok, rest, bind_ok, put_put, pad_put, List.range_succ_eq_map, List.map_cons, List.map_map,
      keypadBit_eq, Nat.add_zero, Nat.mod_eq_of_lt h]
    simp only [keypadAdvance, Nat.mod_add_mod, Function.comp_def, Nat.succ_eq_add_one, Nat.add_assoc, Nat.add_comm 1]

/-- Settles O51: a write and a read of either port are those of its keypad. -/
theorem keypadShiftsOutTheLatchedByte : Obligations.KeypadShiftsOutTheLatchedByte := by
  refine ⟨fun v s h => ⟨?_, ?_⟩, fun v b rest s h => ⟨fun hi => ?_, fun hi => ?_⟩,
    fun n s => ⟨fun h => ?_, fun h => ?_⟩⟩
  · rw [memWrite_keypad1, keypadWrite_capture h]
  · rw [memWrite_keypad2, keypadWrite_capture h]
  · rw [memWrite_keypad1, keypadWrite_latch h hi]
  · rw [memWrite_keypad2, keypadWrite_latch h hi]
  · have reads := readBytes_keypad (a := 0x4016) (pad := State.keypad1) (put := fun k s => { s with keypad1 := k })
      (fun _ => rfl) (fun _ => rfl) (fun _ _ => rfl) (fun _ _ _ => rfl) n s (by rw [h]; decide)
    simpa only [h, Nat.zero_add] using reads
  · have reads := readBytes_keypad (a := 0x4017) (pad := State.keypad2) (put := fun k s => { s with keypad2 := k })
      (fun _ => rfl) (fun _ => rfl) (fun _ _ => rfl) (fun _ _ _ => rfl) n s (by rw [h]; decide)
    simpa only [h, Nat.zero_add] using reads

end Sys2Proof.Machine

/-! PROOFS. With both resources attached a step finds neither absent (60 R474, 70 R534). -/

namespace Sys2Proof.Machine

theorem Connected.not_missing {s : State} (c : Connected s) {f : Fault} : ¬ Missing s f := by
  obtain ⟨hr, hc⟩ := c
  rintro (⟨-, h⟩ | ⟨-, h⟩)
  · rw [h] at hr; cases hr
  · rw [h] at hc; cases hc

theorem connected_keptByMoves : KeptByMoves Connected where
  cpu _ _ c := c
  read _ _ _ _ e := (memRead_effects e).connected
  write _ _ _ _ := memWrite_keepsConnected

theorem PpuEffects.connected {s t : State} (h : PpuEffects s t) (c : Connected s) : Connected t := by
  rw [h]; exact c

theorem connected_keptByParts : KeptByParts Connected :=
  connected_keptByMoves.keptByParts (fun _ c _ _ e => by rw [transferIfRequested_frame e]; exact c)
    fun _ c _ _ e => (ppuStep_effects e).connected c

theorem StepFault.cases {f : Fault} (h : StepFault f) : (∃ b, f = .invalidOpcode b) ∨
    (∃ v, f = .stackPointerOverflow v) ∨ (∃ v, f = .stackPointerUnderflow v) ∨ ∃ p, f = .dmaSourceOutOfRange p := by
  cases f with
  | invalidOpcode b => exact .inl ⟨b, rfl⟩
  | stackPointerOverflow v => exact .inr (.inl ⟨v, rfl⟩)
  | stackPointerUnderflow v => exact .inr (.inr (.inl ⟨v, rfl⟩))
  | dmaSourceOutOfRange p => exact .inr (.inr (.inr ⟨p, rfl⟩))
  | invalidBusAddress => cases h
  | resourceNotConnected => cases h

/-- Settles O38: every part of a step keeps what is attached, so the fault of a step names no resource. -/
theorem attachedMachineNeverMissesAResource : Obligations.AttachedMachineNeverMissesAResource := fun _ c hf =>
  ⟨fun _ h => connected_keptByParts.step (fun _ _ c => c) (fun _ _ c => c) h c,
    fun _ h => ((step_fault hf h).resolve_left c.not_missing).cases,
    fun r h => outcome_ne_refused _ r ((step_eq_outcome hf).symm.trans h)⟩

end Sys2Proof.Machine

/-! PROOFS. The two ends of the stack page (60 R475, R476). -/

namespace Sys2Proof.Machine

theorem instr_of_overflowing {i : Instr} (h : i.row.name ∈ [Mnemonic.PHA, .PHP, .JSR, .BRK]) :
    i = .pha ∨ i = .php ∨ (∃ a, i = .jsr a) ∨ i = .brk := by
  replace h := List.elem_eq_true_of_mem h
  cases i
  case pha => exact .inl rfl
  case php => exact .inr (.inl rfl)
  case jsr a => exact .inr (.inr (.inl ⟨a, rfl⟩))
  case brk => exact .inr (.inr (.inr rfl))
  all_goals cases h

theorem instr_of_underflowing {i : Instr} (h : i.row.name ∈ [Mnemonic.PLA, .PLP, .RTS, .RTI]) :
    i = .pla ∨ i = .plp ∨ i = .rts ∨ i = .rti := by
  replace h := List.elem_eq_true_of_mem h
  cases i
  case pla => exact .inl rfl
  case plp => exact .inr (.inl rfl)
  case rts => exact .inr (.inr (.inl rfl))
  case rti => exact .inr (.inr (.inr rfl))
  all_goals cases h

/-- An instruction that stops with one fault where `P` holds and never with a fault of that kind elsewhere. -/
theorem exec_stackFault_iff {i : Instr} {s : State} {kind : Word → Fault} {w v : Word} {P : Prop}
    (inj : ∀ {u}, kind u = kind w → u = w) (stops : P → exec i s = .fault (kind w))
    (goes : ¬ P → ∀ u, exec i s ≠ .fault (kind u)) : exec i s = .fault (kind v) ↔ v = w ∧ P := by
  by_cases h : P
  · rw [stops h]
    exact ⟨fun e => ⟨(inj (Host.Outcome.fault.inj e).symm), h⟩, fun e => by rw [e.1]⟩
  · exact iff_of_false (goes h v) fun e => h e.2

theorem exec_rti_room {s : State} (h : 0x0100 ≤ s.cpu.sp.toNat ∧ s.cpu.sp.toNat ≤ 0x01FC) :
    exec .rti s = .next { s with
      cpu := { s.cpu with
        pc := wramWord s (s.cpu.sp.toNat + 2)
        sp := s.cpu.sp + 3
        p := byteAt s.wram (s.cpu.sp.toNat + 1) ||| 0x20 } } :=
  congrArg Result.outcome (returnFromInterrupt_room h)

theorem exec_ne_fault_of_next {i : Instr} {s t : State} (h : exec i s = .next t) (f : Fault) :
    exec i s ≠ .fault f := by
  rw [h]; exact nofun

section

variable {s : State} {v : Word}

theorem exec_pha_overflow_iff (h : StackInPage s) :
    exec .pha s = .fault (.stackPointerOverflow v) ↔ v = 0x00FF ∧ s.cpu.sp.toNat ≤ 0x0100 :=
  exec_stackFault_iff Fault.stackPointerOverflow.inj
    (fun full => congrArg Result.outcome (push_full (BitVec.eq_of_toNat_eq (Nat.le_antisymm full h.1)) _))
    fun room _ => exec_ne_fault_of_next (exec_pha_room ⟨Nat.lt_of_not_le room, h.2⟩) _

theorem exec_php_overflow_iff (h : StackInPage s) :
    exec .php s = .fault (.stackPointerOverflow v) ↔ v = 0x00FF ∧ s.cpu.sp.toNat ≤ 0x0100 :=
  exec_stackFault_iff Fault.stackPointerOverflow.inj
    (fun full => congrArg Result.outcome
      (push_full (s := s.setFlag .B true) (BitVec.eq_of_toNat_eq (Nat.le_antisymm full h.1)) _))
    fun room _ => exec_ne_fault_of_next (exec_php_room ⟨Nat.lt_of_not_le room, h.2⟩) _

theorem exec_jsr_overflow_iff (h : StackInPage s) {a : Word} :
    exec (.jsr a) s = .fault (.stackPointerOverflow v) ↔ v = 0x00FF ∧ s.cpu.sp.toNat ≤ 0x0101 :=
  exec_stackFault_iff Fault.stackPointerOverflow.inj (fun full => exec_jsr_full ⟨h.1, full⟩ a)
    fun room _ => exec_ne_fault_of_next (exec_jsr_room ⟨Nat.lt_of_not_le room, h.2⟩ a) _

theorem exec_brk_overflow_iff (h : StackInPage s) :
    exec .brk s = .fault (.stackPointerOverflow v) ↔ v = 0x00FF ∧ s.cpu.sp.toNat ≤ 0x0102 := by
  refine exec_stackFault_iff Fault.stackPointerOverflow.inj
    (fun full => congrArg Result.outcome
      (bind_of_fault (pushFrame_full (s := (s.setPc (s.cpu.pc + 1)).setFlag .B true) ⟨h.1, full⟩)))
    fun full u => ?_
  have room := And.intro (Nat.lt_of_not_le full) h.2
  cases hI : s.flag .I with
  | true => exact exec_ne_fault_of_next (exec_brk_masked room hI) _
  | false =>
    cases hr : s.config.prgRom with
    | some rom => exact exec_ne_fault_of_next (exec_brk_entered room hI hr) _
    | none => rw [exec_brk_noRom room hI hr]; exact nofun

theorem exec_pla_underflow_iff (h : StackInPage s) :
    exec .pla s = .fault (.stackPointerUnderflow v) ↔ v = 0x0200 ∧ 0x01FF ≤ s.cpu.sp.toNat :=
  exec_stackFault_iff Fault.stackPointerUnderflow.inj
    (fun top => congrArg Result.outcome
      (bind_of_fault (pop_empty (BitVec.eq_of_toNat_eq (Nat.le_antisymm h.2 top)))))
    fun below _ => exec_ne_fault_of_next (exec_pla_room ⟨h.1, Nat.le_of_lt_succ (Nat.lt_of_not_le below)⟩) _

theorem exec_plp_underflow_iff (h : StackInPage s) :
    exec .plp s = .fault (.stackPointerUnderflow v) ↔ v = 0x0200 ∧ 0x01FF ≤ s.cpu.sp.toNat :=
  exec_stackFault_iff Fault.stackPointerUnderflow.inj
    (fun top => congrArg Result.outcome
      (bind_of_fault (pop_empty (BitVec.eq_of_toNat_eq (Nat.le_antisymm h.2 top)))))
    fun below _ => exec_ne_fault_of_next (exec_plp_room ⟨h.1, Nat.le_of_lt_succ (Nat.lt_of_not_le below)⟩) _

theorem exec_rts_underflow_iff (h : StackInPage s) :
    exec .rts s = .fault (.stackPointerUnderflow v) ↔ v = 0x0200 ∧ 0x01FE ≤ s.cpu.sp.toNat :=
  exec_stackFault_iff Fault.stackPointerUnderflow.inj (fun top => exec_rts_empty ⟨top, h.2⟩)
    fun below _ => exec_ne_fault_of_next (exec_rts_room ⟨h.1, Nat.le_of_lt_succ (Nat.lt_of_not_le below)⟩) _

theorem exec_rti_underflow_iff (h : StackInPage s) :
    exec .rti s = .fault (.stackPointerUnderflow v) ↔ v = 0x0200 ∧ 0x01FD ≤ s.cpu.sp.toNat :=
  exec_stackFault_iff Fault.stackPointerUnderflow.inj
    (fun top => congrArg Result.outcome (returnFromInterrupt_empty ⟨top, h.2⟩))
    fun below _ => exec_ne_fault_of_next (exec_rti_room ⟨h.1, Nat.le_of_lt_succ (Nat.lt_of_not_le below)⟩) _

theorem exec_overflow_iff (h : StackInPage s) (i : Instr) :
    exec i s = .fault (.stackPointerOverflow v) ↔ v = 0x00FF ∧
      (((i = .pha ∨ i = .php) ∧ s.cpu.sp.toNat ≤ 0x0100) ∨ ((∃ a, i = .jsr a) ∧ s.cpu.sp.toNat ≤ 0x0101) ∨
        (i = .brk ∧ s.cpu.sp.toNat ≤ 0x0102)) := by
  constructor
  · intro e
    have pushes : i.row.name ∈ [Mnemonic.PHA, .PHP, .JSR, .BRK] := by
      rcases exec_fault e with (⟨hf, -⟩ | ⟨hf, -⟩) | ⟨_, -, hn⟩ | ⟨_, hf, -⟩
      · cases hf
      · cases hf
      · exact hn
      · cases hf
    rcases instr_of_overflowing pushes with rfl | rfl | ⟨a, rfl⟩ | rfl
    · exact ((exec_pha_overflow_iff h).mp e).imp_right fun le => .inl ⟨.inl rfl, le⟩
    · exact ((exec_php_overflow_iff h).mp e).imp_right fun le => .inl ⟨.inr rfl, le⟩
    · exact ((exec_jsr_overflow_iff h).mp e).imp_right fun le => .inr (.inl ⟨⟨a, rfl⟩, le⟩)
    · exact ((exec_brk_overflow_iff h).mp e).imp_right fun le => .inr (.inr ⟨rfl, le⟩)
  · rintro ⟨e, ⟨rfl | rfl, le⟩ | ⟨⟨a, rfl⟩, le⟩ | ⟨rfl, le⟩⟩
    · exact (exec_pha_overflow_iff h).mpr ⟨e, le⟩
    · exact (exec_php_overflow_iff h).mpr ⟨e, le⟩
    · exact (exec_jsr_overflow_iff h).mpr ⟨e, le⟩
    · exact (exec_brk_overflow_iff h).mpr ⟨e, le⟩

theorem exec_underflow_iff (h : StackInPage s) (i : Instr) :
    exec i s = .fault (.stackPointerUnderflow v) ↔ v = 0x0200 ∧
      (((i = .pla ∨ i = .plp) ∧ 0x01FF ≤ s.cpu.sp.toNat) ∨ (i = .rts ∧ 0x01FE ≤ s.cpu.sp.toNat) ∨
        (i = .rti ∧ 0x01FD ≤ s.cpu.sp.toNat)) := by
  constructor
  · intro e
    have pops : i.row.name ∈ [Mnemonic.PLA, .PLP, .RTS, .RTI] := by
      rcases exec_fault e with (⟨hf, -⟩ | ⟨hf, -⟩) | ⟨_, hf, -⟩ | ⟨_, -, hn⟩
      · cases hf
      · cases hf
      · cases hf
      · exact hn
    rcases instr_of_underflowing pops with rfl | rfl | rfl | rfl
    · exact ((exec_pla_underflow_iff h).mp e).imp_right fun le => .inl ⟨.inl rfl, le⟩
    · exact ((exec_plp_underflow_iff h).mp e).imp_right fun le => .inl ⟨.inr rfl, le⟩
    · exact ((exec_rts_underflow_iff h).mp e).imp_right fun le => .inr (.inl ⟨rfl, le⟩)
    · exact ((exec_rti_underflow_iff h).mp e).imp_right fun le => .inr (.inr ⟨rfl, le⟩)
  · rintro ⟨e, ⟨rfl | rfl, le⟩ | ⟨rfl, le⟩ | ⟨rfl, le⟩⟩
    · exact (exec_pla_underflow_iff h).mpr ⟨e, le⟩
    · exact (exec_plp_underflow_iff h).mpr ⟨e, le⟩
    · exact (exec_rts_underflow_iff h).mpr ⟨e, le⟩
    · exact (exec_rti_underflow_iff h).mpr ⟨e, le⟩

/-- Interrupt entry without room for its frame (60 R475, R484). -/
theorem takeInterrupt_full (h : 0x0100 ≤ s.cpu.sp.toNat ∧ s.cpu.sp.toNat ≤ 0x0102) (vector : Word) :
    takeInterrupt vector s = .fault (.stackPointerOverflow 0x00FF) :=
  takeInterrupt_frame_fault (pushFrame_full (s := s.setFlag .B false) h)

/-- Interrupt entry with room reads its vector and can fault there only. -/
theorem takeInterrupt_room_faults (h : 0x0103 ≤ s.cpu.sp.toNat ∧ s.cpu.sp.toNat ≤ 0x01FF) (vector : Word) :
    (takeInterrupt vector s).FaultsWithin (fun _ => False) s := by
  unfold takeInterrupt
  rw [bind_of_ok (pushFrame_room (s := s.setFlag .B false) h)]
  refine Result.FaultsWithin.after (faultsWithin_bind (faultsWithin_readWord vector _) fun _ t => ?_) ⟨rfl, rfl⟩
  exact .ok (.refl t)

theorem takeInterrupt_overflow_iff (h : StackInPage s) (vector : Word) :
    takeInterrupt vector s = .fault (.stackPointerOverflow v) ↔ v = 0x00FF ∧ s.cpu.sp.toNat ≤ 0x0102 := by
  by_cases full : s.cpu.sp.toNat ≤ 0x0102
  · rw [takeInterrupt_full ⟨h.1, full⟩]
    simp [full, eq_comm]
  · refine iff_of_false (fun e => ?_) fun e => full e.2
    have faults := takeInterrupt_room_faults ⟨Nat.lt_of_not_le full, h.2⟩ vector
    rw [e] at faults
    rcases faults.cause with (⟨hf, -⟩ | ⟨hf, -⟩) | hf <;> cases hf

theorem takeInterrupt_ne_underflow (vector : Word) :
    takeInterrupt vector s ≠ .fault (.stackPointerUnderflow v) := fun e => by
  have faults := faultsWithin_takeInterrupt (own := fun f => ∃ u, f = .stackPointerOverflow u) (fun u => ⟨u, rfl⟩)
    vector s
  rw [e] at faults
  rcases faults.cause with (⟨hf, -⟩ | ⟨hf, -⟩) | ⟨u, hf⟩ <;> cases hf

end

/-- Settles O30: each instruction that pushes or pops by its rules with room and without, every other by what it can
fault with; interrupt entry likewise. -/
theorem stackFaultsAtThePageEnds : Obligations.StackFaultsAtThePageEnds := fun _ h =>
  ⟨fun i _ => exec_overflow_iff h i, fun i _ => exec_underflow_iff h i,
    fun vector _ => ⟨takeInterrupt_overflow_iff h vector, takeInterrupt_ne_underflow vector⟩⟩

end Sys2Proof.Machine

/-! PROOFS. Interrupt polling, entry and return, and `CPU.reset()` (60 R483 to R488, 70 R531). -/

namespace Sys2Proof.Machine

theorem handleInterrupts_nmi {s : State} (h : s.int.nmi = true) :
    handleInterrupts s = takeInterrupt nmiVector { s with int := { s.int with nmi := false } } := if_pos h

theorem handleInterrupts_irq {s : State} (hn : s.int.nmi = false) (hi : s.int.irq = true) (hI : s.flag .I = false) :
    handleInterrupts s = takeInterrupt irqVector { s with int := { s.int with irq := false } } := by
  unfold handleInterrupts
  rw [hn, hi, hI]
  rfl

theorem handleInterrupts_none {s : State} (h : NoInterrupt s) : handleInterrupts s = .ok () s := by
  obtain ⟨hn, hi | hI⟩ := h
  · simp [handleInterrupts, hn, hi]
  · simp [handleInterrupts, hn, hI]

/-- With a request to service, polling is an interrupt entry through one of the two vectors. -/
theorem handleInterrupts_entry {s : State} (h : ¬ NoInterrupt s) : ∃ vector int, 0x8000 ≤ vector.toNat ∧
    handleInterrupts s = takeInterrupt vector { s with int := int } := by
  cases hn : s.int.nmi with
  | true => exact ⟨nmiVector, _, by decide, handleInterrupts_nmi hn⟩
  | false =>
    cases hi : s.int.irq with
    | false => exact absurd ⟨hn, .inl hi⟩ h
    | true =>
      cases hI : s.flag .I with
      | true => exact absurd ⟨hn, .inr hI⟩ h
      | false => exact ⟨irqVector, _, by decide, handleInterrupts_irq hn hi hI⟩

/-- Interrupt entry with room and no ROM faults at the vector read (60 R474). -/
theorem takeInterrupt_noRom {s : State} (h : 0x0103 ≤ s.cpu.sp.toNat ∧ s.cpu.sp.toNat ≤ 0x01FF)
    (hr : s.config.prgRom = none) {vector : Word} (hv : 0x8000 ≤ vector.toNat) :
    takeInterrupt vector s = .fault (.resourceNotConnected .programRom) :=
  (bind_of_ok (pushFrame_room (s := s.setFlag .B false) h)).trans
    (bind_of_fault (bind_of_fault (memRead_noRom hv hr)))

/-- Settles O46: either service is an interrupt entry, with room and ROM or without. -/
theorem pollingServicesAtMostOneRequest : Obligations.PollingServicesAtMostOneRequest := by
  refine ⟨fun s rom hr lo hi => ⟨fun hn => ⟨_, ?_, storedBytes_frame s.wram (by omega) _ _ _⟩,
    fun hn hq hI => ⟨_, ?_, storedBytes_frame s.wram (by omega) _ _ _⟩⟩, fun s => handleInterrupts_none,
    fun s h hs => ?_⟩
  · rw [handleInterrupts_nmi hn]
    exact takeInterrupt_room (s := { s with int := { s.int with nmi := false } }) ⟨lo, hi⟩ hr (by decide)
  · rw [handleInterrupts_irq hn hq hI]
    exact takeInterrupt_room (s := { s with int := { s.int with irq := false } }) ⟨lo, hi⟩ hr (by decide)
  · obtain ⟨vector, int, hv, e⟩ := handleInterrupts_entry h
    rw [e]
    exact ⟨fun full => takeInterrupt_full (s := { s with int := int }) ⟨hs.1, full⟩ vector,
      fun room hr => takeInterrupt_noRom (s := { s with int := int }) ⟨room, hs.2⟩ hr hv⟩

/-- A read at the successor of a program ROM address is of program ROM or of working RAM, and changes nothing. -/
theorem readWord_romSpace_state {a w : Word} {s t : State} (h : 0x8000 ≤ a.toNat) (e : readWord a s = .ok w t) :
    t = s := by
  obtain ⟨lo, u, h1, h2⟩ := bind_eq_ok.mp e
  obtain ⟨hi, v, h3, h4⟩ := bind_eq_ok.mp h2
  cases h4
  obtain rfl := memRead_romSpace_state h h1
  by_cases last : a.toNat = 0xFFFF
  · rw [memRead_wram (by bv_omega)] at h3
    cases h3
    rfl
  · exact memRead_romSpace_state (by bv_omega) h3

/-- What interrupt entry with room leaves, whatever the vector holds (60 R484). -/
theorem takeInterrupt_room_state {s t : State} {vector : Word}
    (h : 0x0103 ≤ s.cpu.sp.toNat ∧ s.cpu.sp.toNat ≤ 0x01FF) (hv : 0x8000 ≤ vector.toNat)
    (e : takeInterrupt vector s = .ok () t) : ∃ target, t = { s with
      wram := setByte (setByte (setByte s.wram s.cpu.sp.toNat (highByte s.cpu.pc))
        (s.cpu.sp.toNat - 1) (lowByte s.cpu.pc)) (s.cpu.sp.toNat - 2) (s.cpu.p &&& 0xEF)
      cpu := { s.cpu with pc := target, sp := s.cpu.sp - 3, p := (s.cpu.p &&& 0xEF) ||| 0x04 } } := by
  obtain ⟨⟨⟩, u, h1, h2⟩ := bind_eq_ok.mp e
  rw [pushFrame_room (s := s.setFlag .B false) h] at h1
  cases h1
  obtain ⟨target, v, h3, h4⟩ := bind_eq_ok.mp h2
  cases h4
  rw [readWord_romSpace_state hv h3]
  exact ⟨target, rfl⟩

/-- The three places of a frame, read back. -/
theorem byteAt_frame (m : Memory) {k : Nat} (hk : 2 ≤ k) (hi lo p : Byte) :
    let framed := setByte (setByte (setByte m k hi) (k - 1) lo) (k - 2) p
    byteAt framed k = hi ∧ byteAt framed (k - 1) = lo ∧ byteAt framed (k - 2) = p := by
  have h1 : k ≠ k - 2 := by omega
  have h2 : k ≠ k - 1 := by omega
  have h3 : k - 1 ≠ k - 2 := by omega
  simp only [byteAt_setByte_same, byteAt_setByte_other h1, byteAt_setByte_other h2, byteAt_setByte_other h3, and_self]

/-- Settles O47: the frame that entry stored is the one that RTI takes. -/
theorem entryThenRtiResumes : Obligations.EntryThenRtiResumes := fun s t vector hv lo hi e => by
  obtain ⟨target, rfl⟩ := takeInterrupt_room_state ⟨lo, hi⟩ hv e
  obtain ⟨pcHigh, pcLow, status⟩ := byteAt_frame s.wram (k := s.cpu.sp.toNat) (by omega) (highByte s.cpu.pc)
    (lowByte s.cpu.pc) (s.cpu.p &&& 0xEF)
  have sp : (s.cpu.sp - 3).toNat = s.cpu.sp.toNat - 3 := by bv_omega
  have sp1 : s.cpu.sp.toNat - 3 + 1 = s.cpu.sp.toNat - 2 := by omega
  have sp2 : s.cpu.sp.toNat - 3 + 2 = s.cpu.sp.toNat - 1 := by omega
  have sp3 : s.cpu.sp.toNat - 1 + 1 = s.cpu.sp.toNat := by omega
  rw [exec_rti_room (by simp only [sp]; omega)]
  simp only [wramWord, sp, sp1, sp2, sp3, pcHigh, pcLow, status, Laws.RoundTrip.word_roundTrip, BitVec.sub_add_cancel]

theorem cpuReset_rom {s : State} {rom : PrgRom} (hr : s.config.prgRom = some rom) :
    cpuReset s = .ok () { s with cpu := ⟨0x00, 0x00, 0x00, romWord rom 0xFFFC, 0x01FD, 0x34⟩ } :=
  bind_of_ok (readWord_rom (a := resetVector)
    (s := ((((s.setA 0x00).setX 0x00).setY 0x00).setP 0x34).setSp 0x01FD) (by decide) (by decide) hr)

/-- Settles O48: reset reads its vector and sets the registers, whatever they were; the boot state is computed. -/
theorem cpuResetSetsTheCpuRegisters : Obligations.CpuResetSetsTheCpuRegisters := by
  refine ⟨fun s rom hr => ⟨cpuReset_rom hr, ?_⟩,
    fun s hr => bind_of_fault (bind_of_fault (memRead_noRom (by decide) hr)), boot_default, rfl, rfl, fun rom hr => ?_⟩
  · rw [cpuReset_rom hr, bind_ok]
    exact cpuReset_rom hr
  · cases hr
    decide

end Sys2Proof.Machine

/-! PROOFS. The counters, the status byte and the events of a PPU step (50 R350 to R354). -/

namespace Sys2Proof.Machine

/-- The state at cycle 0 of its line. -/
def State.atLineStart (s : State) : State := { s with ppu := { s.ppu with cycle := 0 } }

theorem commutes_atLineStart_ppuBusRead (a : Word) : Commutes State.atLineStart (ppuBusRead a) :=
  commutes_ppuBusRead (g := State.atLineStart) (fun _ => rfl) (fun _ => rfl) (fun _ => rfl) (fun _ => rfl) a

theorem commutes_atLineStart_patternRow (bank : Bool) (tile : Byte) (row : Nat) :
    Commutes State.atLineStart (patternRow bank tile row) :=
  commutes_bind (commutes_atLineStart_ppuBusRead _) fun _ =>
    commutes_bind (commutes_atLineStart_ppuBusRead _) fun _ => commutes_pure

theorem commutes_atLineStart_spritePixel (rec : SpriteRecord) (row : PlaneRow) (py c : Nat) :
    Commutes State.atLineStart (drawSpritePixel rec row py c) := by
  refine commutes_ite (c := fun _ => rec.x + c ≥ 256) commutes_pure ?_ fun _ => .rfl
  refine commutes_ite (c := fun _ => pixelValue row (if rec.attr.getLsbD 6 then 7 - c else c) = 0) commutes_pure ?_
    fun _ => .rfl
  refine commutes_ite (c := fun s => (rec.attr.getLsbD 5 && gridGet false s.ppu.bgOpaque py (rec.x + c)) = true)
    commutes_pure ?_ fun _ => .rfl
  exact commutes_bind (commutes_bind (commutes_atLineStart_ppuBusRead _) fun _ => commutes_pure) fun _ =>
    commutes_ok fun _ => rfl

/-- Sprite drawing does not see the cycle counter (50 R363, R364). -/
theorem commutes_atLineStart_sprites : Commutes State.atLineStart drawSprites := by
  have row : ∀ rec r, Commutes State.atLineStart (drawSpriteRow rec r) := fun rec r =>
    commutes_ite (c := fun _ => rec.y + r ≥ 240) commutes_pure
      (commutes_bind (commutes_param (p := fun s => s.ppu.control.getLsbD 3)
        (commutes_atLineStart_patternRow · rec.tile (if rec.attr.getLsbD 7 then 7 - r else r)) fun _ => rfl)
        fun row => commutes_forEach (commutes_atLineStart_spritePixel rec row _) _)
      fun _ => .rfl
  exact commutes_ite (c := fun s => s.ppu.mask.getLsbD 4)
    (commutes_forEach (fun n => commutes_param (p := fun s => spriteRecord s.ppu.spriteRam n)
      (fun rec => commutes_forEach (row rec) _) fun _ => rfl) _)
    commutes_pure fun _ => .rfl

theorem advance_withinLine {s : State} (h : s.ppu.cycle < 340) :
    advance s = .ok () { s with ppu := { s.ppu with cycle := s.ppu.cycle + 1 } } := if_pos h

/-- Past cycle 340 of a line that is not the last (50 R351). -/
theorem advance_lineEnd {s : State} (hc : s.ppu.cycle = 340) (hl : s.ppu.line < 261) : advance s =
    let t := { s with ppu := { s.ppu with cycle := 0, line := s.ppu.line + 1 } }
    .ok () (if s.ppu.line + 1 = 240 then vblankStart t else t) :=
  (if_neg (by omega)).trans (if_pos hl)

theorem advance_frameEnd {s : State} (hc : s.ppu.cycle = 340) (hl : s.ppu.line = 261) :
    advance s = frameEnd s.atLineStart := (if_neg (by omega)).trans (if_neg (by omega))

/-- Settles O53: the branch of the counter advance that the counters choose. -/
theorem lineEvents : Obligations.LineEvents := by
  refine ⟨fun s => advance_withinLine, fun s hc hl h239 => ?_, fun s hc hl => ?_, fun s t hc hl ht => ?_⟩
  · rw [advance_lineEnd hc hl]
    exact congrArg (Result.ok ()) (if_neg (by omega))
  · rw [advance_lineEnd hc (by omega), hl]
    rfl
  · rw [advance_frameEnd hc hl, frameEnd, commutes_atLineStart_sprites s, ht]
    rfl

theorem framePosition_congr {s t : State} (cycle : t.ppu.cycle = s.ppu.cycle) (line : t.ppu.line = s.ppu.line) :
    framePosition t = framePosition s := by rw [framePosition, cycle, line, framePosition]

theorem CountersInRange.congr {s t : State} (hs : CountersInRange s) (cycle : t.ppu.cycle = s.ppu.cycle)
    (line : t.ppu.line = s.ppu.line) : CountersInRange t := by rw [CountersInRange, cycle, line]; exact hs

/-- The counter advance moves one place through the frame (50 R351). -/
theorem advance_position {s t : State} (hs : CountersInRange s) (h : advance s = .ok () t) :
    CountersInRange t ∧ framePosition t = (framePosition s + 1) % 89342 := by
  obtain ⟨hc, hl⟩ := hs
  unfold CountersInRange framePosition
  rcases advance_eq_ok h with ⟨lt, rfl⟩ | ⟨ge, lt, -, rfl⟩ | ⟨ge, e, rfl⟩ | ⟨ge, last, u, hu, rfl⟩
  · dsimp only; omega
  · dsimp only; omega
  · dsimp only; omega
  · obtain ⟨cycle, -⟩ := (draws_sprites.1 _ _ _ hu).fields
    dsimp only at cycle ⊢
    omega

/-- The byte with one bit alone. -/
theorem getLsbD_bit {j : Nat} (hj : j < 8) (k : Nat) : (1#8 <<< j).getLsbD k = decide (k = j) := by
  rw [BitVec.getLsbD_shiftLeft]
  by_cases h : k = j
  · subst h; simp [hj]
  · by_cases lt : k < j
    · simp [h, lt]
    · simp [h, lt, BitVec.getLsbD_one, show k - j ≠ 0 by omega]

/-- Sprite 0's y is the line, and both enables are 1 (50 R354). -/
def spriteZeroHit (s : State) : Bool :=
  decide ((byteAt s.ppu.spriteRam 0).toNat = s.ppu.line) && s.ppu.mask.getLsbD 3 && s.ppu.mask.getLsbD 4

/-- The sprite-0 test can set status bit 6 and does no more. -/
theorem spriteZeroTest_status (s : State) (k : Nat) : (spriteZeroTest s).ppu.status.getLsbD k =
    (s.ppu.status.getLsbD k || (decide (k = 6) && spriteZeroHit s)) := by
  have bit : (0x40 : Byte).getLsbD k = decide (k = 6) := getLsbD_bit (j := 6) (by decide) k
  rw [spriteZeroTest_eq]
  unfold spriteZeroHit
  dsimp only
  split
  · rename_i hit
    rw [BitVec.getLsbD_or, bit, decide_eq_true hit.1, hit.2.1, hit.2.2, Bool.and_true, Bool.and_true, Bool.and_true]
  · rename_i miss
    have : (decide ((byteAt s.ppu.spriteRam 0).toNat = s.ppu.line) && s.ppu.mask.getLsbD 3 &&
        s.ppu.mask.getLsbD 4) = false := by simpa [and_assoc] using miss
    rw [this, Bool.and_false, Bool.or_false]

/-- A PPU step is a counter advance, from a state where only the sprite-0 test has touched what the advance reads
(50 R350). -/
theorem ppuStep_advance {s t : State} (h : ppuStep s = .ok () t) : ∃ u, advance u = .ok () t ∧
    u.ppu.cycle = s.ppu.cycle ∧ u.ppu.line = s.ppu.line ∧ u.ppu.control = s.ppu.control ∧ u.int = s.int ∧
    ∀ k, u.ppu.status.getLsbD k = (s.ppu.status.getLsbD k || (decide (k = 6) && spriteZeroHit s)) := by
  obtain ⟨⟨⟩, u, h1, h2⟩ := bind_eq_ok.mp h
  obtain ⟨cycle, line, status, control, mask, sprites, int⟩ := (draws_backgroundPart.1 _ _ _ h1).fields
  refine ⟨_, h2, ?_, ?_, ?_, ?_, fun k => ?_⟩
  · rw [spriteZeroTest_eq]; exact cycle
  · rw [spriteZeroTest_eq]; exact line
  · rw [spriteZeroTest_eq]; exact control
  · rw [spriteZeroTest_eq]; exact int
  · rw [spriteZeroTest_status, spriteZeroHit, status, mask, sprites, line]
    rfl

theorem ppuStep_position {s t : State} (hs : CountersInRange s) (h : ppuStep s = .ok () t) :
    CountersInRange t ∧ framePosition t = (framePosition s + 1) % 89342 := by
  obtain ⟨u, hu, cycle, line, -⟩ := ppuStep_advance h
  rw [← framePosition_congr cycle line]
  exact advance_position (hs.congr cycle line) hu

theorem ppuSteps_position : ∀ (n : Nat) {s t : State}, CountersInRange s → ppuSteps n s = .ok () t →
    CountersInRange t ∧ framePosition t = (framePosition s + n) % 89342
  | 0, s, t, hs, h => by
    cases h
    refine ⟨hs, ?_⟩
    unfold CountersInRange at hs
    unfold framePosition
    omega
  | n + 1, s, t, hs, h => by
    obtain ⟨⟨⟩, u, h1, h2⟩ := bind_eq_ok.mp h
    obtain ⟨hu, first⟩ := ppuStep_position hs h1
    obtain ⟨ht, rest⟩ := ppuSteps_position n hu h2
    exact ⟨ht, by omega⟩

/-- The place in the frame and the parameters. -/
def AtPlace (cycle line : Nat) (c : Config) (s : State) : Prop :=
  s.ppu.cycle = cycle ∧ s.ppu.line = line ∧ s.config = c

theorem atPlace_keptByMoves (cycle line : Nat) (c : Config) : KeptByMoves (AtPlace cycle line c) where
  cpu _ _ p := p
  read _ _ _ _ e p := by rw [(memRead_effects e).1]; exact p
  write _ _ _ _ e p := by
    rcases memWrite_cases e with ⟨-, e⟩ | ⟨-, e | e | e⟩
    · rw [(ppuPortWrite_effects e).1]; exact p
    · rw [e]; exact p
    · rw [e]; exact p
    · rw [e]; exact p

/-- What the moves and the DMA drain keep, and what says nothing of the latches and the schedule, is kept up to the
decode. -/
theorem KeptByMoves.prepare {P : State → Prop} (k : KeptByMoves P) (dma : Keeps P transferIfRequested)
    (int : ∀ s i, P s → P { s with int := i }) (schedule : ∀ s hs, P s → P { s with schedule := hs }) :
    Keeps P prepare :=
  keeps_bind
    (keeps_bind (keeps_hostPart (k.keeps moving_cpuReset) (fun s => int s _) schedule) fun _ =>
      keeps_bind dma fun _ =>
        keeps_handleInterrupts (fun v => k.keeps (moving_takeInterrupt v)) fun s p => ⟨int s _ p, int s _ p⟩)
    fun _ => k.keeps moving_fetchInstr

/-- The counters and the parameters when the PPU's part of a step begins. -/
theorem step_place {s t u : State} {i : Instr} (hp : prepare s = .ok i t) (h : step s = .next u) :
    ∃ v, AtPlace s.ppu.cycle s.ppu.line s.config v ∧ ppuPart i v = .ok () u := by
  obtain ⟨-, s1, j, s2, v, h1, h2, h3, h4⟩ := step_eq_next.mp h
  have prepared : prepare s = .ok j s2 := (bind_of_ok h1).trans h2
  obtain ⟨rfl, rfl⟩ := Result.ok.inj (hp.symm.trans prepared)
  have moves := atPlace_keptByMoves s.ppu.cycle s.ppu.line s.config
  have before : AtPlace s.ppu.cycle s.ppu.line s.config t :=
    moves.prepare (fun _ p _ _ e => by rw [transferIfRequested_frame e]; exact p) (fun _ _ p => p) (fun _ _ p => p)
      s ⟨rfl, rfl, rfl⟩ _ _ hp
  exact ⟨v, (exec_moves h3).keeps moves.cpu moves.read moves.write before, h4⟩

theorem row_cycles_bounds (i : Instr) : 2 ≤ i.row.cycles ∧ i.row.cycles ≤ 8 := by
  cases i <;> exact ⟨Nat.le_of_ble_eq_true rfl, Nat.le_of_ble_eq_true rfl⟩

/-- Settles O52: one place for each PPU step, and no other part of a step moves the counters. -/
theorem ppuAdvancesThreePerCycle : Obligations.PpuAdvancesThreePerCycle := by
  refine ⟨fun n s hs hc => ?_, fun s t u i hs hp h => ?_, fun c i hc => ⟨?_, row_cycles_bounds i⟩⟩
  · obtain ⟨t, ht⟩ := ppuSteps_connected n hc
    obtain ⟨range, place⟩ := ppuSteps_position n hs ht
    exact ⟨t, ht, range, place, ppuSteps_effects n ht⟩
  · obtain ⟨v, ⟨cycle, line, config⟩, part⟩ := step_place hp h
    rw [← framePosition_congr cycle line, ← config]
    exact (ppuSteps_position _ (hs.congr cycle line) part).2
  · rw [cyclesOf, hc]; rfl

/-- The counter advance on the status byte and the NMI latch: the end of the frame, the start of vertical blank, or
neither (50 R352, R353). -/
theorem advance_flags {s t : State} (hs : CountersInRange s) (h : advance s = .ok () t) :
    (framePosition s = 89341 ∧ t.ppu.status = s.ppu.status &&& 0x3F ∧ t.int.nmi = false) ∨
    (framePosition s = 341 * 240 - 1 ∧ t.ppu.status = s.ppu.status ||| 0x80 ∧
      t.int.nmi = (s.int.nmi || s.ppu.control.getLsbD 7)) ∨
    (framePosition s ≠ 89341 ∧ framePosition s ≠ 341 * 240 - 1 ∧ t.ppu.status = s.ppu.status ∧
      t.int.nmi = s.int.nmi) := by
  obtain ⟨hc, hl⟩ := hs
  unfold framePosition
  rcases advance_eq_ok h with ⟨lt, rfl⟩ | ⟨ge, lt, ne, rfl⟩ | ⟨ge, e, rfl⟩ | ⟨ge, last, u, hu, rfl⟩
  · exact .inr (.inr ⟨by omega, by omega, rfl, rfl⟩)
  · exact .inr (.inr ⟨by omega, by omega, rfl, rfl⟩)
  · exact .inr (.inl ⟨by omega, rfl, rfl⟩)
  · obtain ⟨-, -, status, -⟩ := (draws_sprites.1 _ _ _ hu).fields
    exact .inl ⟨by omega, by dsimp only; rw [status], rfl⟩

/-- The end of the frame clears bits 7 and 6 and keeps the others (50 R353). -/
theorem getLsbD_and_3F (p : Byte) (k : Nat) : (p &&& 0x3F).getLsbD k = (p.getLsbD k && decide (k < 6)) := by
  have masks : ∀ j, j < 8 → (0x3F : Byte).getLsbD j = decide (j < 6) := by decide
  have mask : (0x3F : Byte).getLsbD k = decide (k < 6) := by
    by_cases h : k < 8
    · exact masks k h
    · rw [BitVec.getLsbD_of_ge _ _ (by omega), decide_eq_false (by omega)]
  rw [BitVec.getLsbD_and, mask]

/-- Vertical blank sets bit 7 and keeps the others (50 R352). -/
theorem getLsbD_or_80 (p : Byte) (k : Nat) : (p ||| 0x80).getLsbD k = (p.getLsbD k || decide (k = 7)) := by
  rw [BitVec.getLsbD_or]
  exact congrArg _ (getLsbD_bit (j := 7) (by decide) k)

/-- Settles O54: the sprite-0 test on what drawing left, then the counter advance. -/
theorem statusFlagsOfAPpuStep : Obligations.StatusFlagsOfAPpuStep := fun s t hs h => by
  obtain ⟨u, hu, cycle, line, control, int, tested⟩ := ppuStep_advance h
  have flags := advance_flags (hs.congr cycle line) hu
  rw [framePosition_congr cycle line, int, control] at flags
  have low : ∀ {k}, k < 6 → k ≠ 6 ∧ k ≠ 7 := by omega
  rcases flags with ⟨e, status, nmi⟩ | ⟨e, status, nmi⟩ | ⟨ne, ne', status, nmi⟩ <;> rw [status, nmi]
  · simp only [getLsbD_and_3F, tested, e]
    refine ⟨by simp, by simp, fun k hk => by simp [hk, low hk], by simp⟩
  · simp only [getLsbD_or_80, tested, e]
    refine ⟨by simp [spriteZeroHit], by simp, fun k hk => by simp [low hk], by simp⟩
  · simp only [tested]
    refine ⟨by simp [spriteZeroHit, ne], by simp [ne, ne'], fun k hk => by simp [low hk], by simp [ne, ne']⟩

end Sys2Proof.Machine

/-! PROOFS. What background groups draw (50 R355 to R362). -/

namespace Sys2Proof.Machine

section

variable {s : State}

theorem ppuBusRead_ppuByte (h : s.chr.isSome = true) (a : Nat) :
    ppuBusRead (BitVec.ofNat 16 a) s = .ok (ppuByte a s) s := by
  obtain ⟨v, hv⟩ := ppuBusRead_connected (BitVec.ofNat 16 a) h
  rw [ppuByte, hv]

theorem ppuByte_congr {t : State} (a : Nat) (hc : t.chr = s.chr) (hv : t.vram = s.vram) (hp : t.palette = s.palette)
    (hm : t.config = s.config) : ppuByte a t = ppuByte a s := by
  unfold ppuByte
  rw [ppuBusRead_congr hc hv hp hm]
  cases ppuBusRead (BitVec.ofNat 16 a) s <;> rfl

theorem Drawn.ppuByte {t : State} (h : Drawn s t) (a : Nat) : ppuByte a t = ppuByte a s :=
  ppuByte_congr a (by rw [h]) (by rw [h]) (by rw [h]) (by rw [h])

theorem colour_eq (h : s.chr.isSome = true) (index : Nat) :
    colour index s = .ok ((ppuByte (0x3F00 + index) s).setWidth 6) s := bind_of_ok (ppuBusRead_ppuByte h _)

theorem patternRow_eq (h : s.chr.isSome = true) (bank : Bool) (tile : Byte) (row : Nat) :
    patternRow bank tile row s = .ok ⟨ppuByte (0x1000 * bank.toNat + 16 * tile.toNat + row) s,
      ppuByte (0x1000 * bank.toNat + 16 * tile.toNat + row + 8) s⟩ s :=
  (bind_of_ok (ppuBusRead_ppuByte h _)).trans (bind_of_ok (ppuBusRead_ppuByte h _))

theorem attributeSelector_eq (h : s.chr.isSome = true) (b : BgPlace) : attributeSelector b s =
    .ok ((ppuByte (attributeAddress b) s).toNat / 2 ^ (4 * (b.ty % 4 / 2) + 2 * (b.tx % 4 / 2)) % 4) s := by
  rw [← Nat.shiftRight_eq_div_pow]
  exact bind_of_ok (ppuBusRead_ppuByte h _)

end

/-- One pixel of a background group: its colour and its opacity bit. -/
def drawGroupPixel (index : Nat → Nat) (shows : Nat → Bool) (x y i : Nat) (s : State) : Result Unit :=
  (colour (index i) s).bind fun c s => .ok () (setOpaque y (x + i) (shows i) (setPixel y (x + i) c s))

/-- The place is one of the pixels `ks` of the group at `(x, y)`. -/
def InGroup (x y : Nat) (ks : List Nat) (py px : Nat) : Prop := py = y ∧ x ≤ px ∧ px - x ∈ ks

/-- Drawing the pixels `ks` of a group: each gets its colour and bit, every other place keeps what it had. -/
theorem forEach_drawGroupPixel (index : Nat → Nat) (shows : Nat → Bool) (x y : Nat) :
    ∀ (ks : List Nat) {s : State}, s.chr.isSome = true →
    ∃ t, forEach (drawGroupPixel index shows x y) ks s = .ok () t ∧ Drawn s t ∧ ∀ py px,
      (InGroup x y ks py px →
        gridGet .black t.ppu.image py px = .colour ((ppuByte (0x3F00 + index (px - x)) s).setWidth 6) ∧
        gridGet false t.ppu.bgOpaque py px = shows (px - x)) ∧
      (¬ InGroup x y ks py px → gridGet .black t.ppu.image py px = gridGet .black s.ppu.image py px ∧
        gridGet false t.ppu.bgOpaque py px = gridGet false s.ppu.bgOpaque py px)
  | [], s, _ => ⟨s, rfl, .refl s, fun _ _ => ⟨fun ⟨_, _, h⟩ => absurd h List.not_mem_nil, fun _ => ⟨rfl, rfl⟩⟩⟩
  | i :: ks, s, hs => by
    have first : drawGroupPixel index shows x y i s = .ok () (setOpaque y (x + i) (shows i)
        (setPixel y (x + i) ((ppuByte (0x3F00 + index i) s).setWidth 6) s)) := bind_of_ok (colour_eq hs _)
    generalize hu : setOpaque y (x + i) (shows i)
      (setPixel y (x + i) ((ppuByte (0x3F00 + index i) s).setWidth 6) s) = u at first
    have drawn : Drawn s u := hu ▸ (drawn_setPixel _ _ _ _).trans (drawn_setOpaque _ _ _ _)
    obtain ⟨t, ht, rest, pixels⟩ := forEach_drawGroupPixel index shows x y ks (s := u) (by rw [drawn.chr]; exact hs)
    refine ⟨t, (bind_of_ok first).trans ht, drawn.trans rest, fun py px => ?_⟩
    obtain ⟨inside, outside⟩ := pixels py px
    rw [drawn.ppuByte] at inside
    have image : gridGet .black u.ppu.image py px = if py = y ∧ px = x + i then
        .colour ((ppuByte (0x3F00 + index i) s).setWidth 6) else gridGet .black s.ppu.image py px := by
      rw [← hu]; exact gridGet_set _ _ _ _ _ _ _
    have bits : gridGet false u.ppu.bgOpaque py px =
        if py = y ∧ px = x + i then shows i else gridGet false s.ppu.bgOpaque py px := by
      rw [← hu]; exact gridGet_set _ _ _ _ _ _ _
    rw [image, bits] at outside
    by_cases hk : InGroup x y ks py px
    · exact ⟨fun _ => inside hk, fun h => absurd ⟨hk.1, hk.2.1, List.mem_cons_of_mem _ hk.2.2⟩ h⟩
    · by_cases here : py = y ∧ px = x + i
      · obtain ⟨rfl, rfl⟩ := here
        simp only [and_self, if_true] at outside
        rw [Nat.add_sub_cancel_left]
        exact ⟨fun _ => outside hk, fun h => absurd ⟨rfl, Nat.le_add_right x i, by simp⟩ h⟩
      · rw [if_neg here, if_neg here] at outside
        refine ⟨fun ⟨hy, hx, hi⟩ => ?_, fun _ => outside hk⟩
        rcases List.mem_cons.mp hi with e | hi
        · exact absurd ⟨hy, by omega⟩ here
        · exact absurd ⟨hy, hx, hi⟩ hk

theorem inGroup_range {x y py px : Nat} : InGroup x y (List.range 8) py px ↔ py = y ∧ x ≤ px ∧ px < x + 8 := by
  unfold InGroup
  rw [List.mem_range]
  omega

/-- A background group with rendering enabled, its reads made (50 R355 to R360). -/
theorem drawBackgroundGroup_enabled {s : State} (hs : s.chr.isSome = true) (hm : s.ppu.mask.getLsbD 3 = true)
    (x y : Nat) :
    let place := bgCoordinates s.ppu x y
    let sel := (ppuByte (attributeAddress place) s).toNat / 2 ^ (4 * (place.ty % 4 / 2) + 2 * (place.tx % 4 / 2)) % 4
    let base := 0x1000 * (s.ppu.control.getLsbD 4).toNat + 16 * (ppuByte (nameAddress place) s).toNat + place.fy
    drawBackgroundGroup x y s =
      forEach (drawGroupPixel (fun i => 4 * sel + planePixel (ppuByte base s) (ppuByte (base + 8) s) i)
        (fun i => planePixel (ppuByte base s) (ppuByte (base + 8) s) i != 0) x y) (List.range 8) s := by
  dsimp only
  unfold drawBackgroundGroup
  rw [if_pos hm, bind_of_ok (ppuBusRead_ppuByte hs _), bind_of_ok (attributeSelector_eq hs _),
    bind_of_ok (patternRow_eq hs _ _ _)]
  rfl

theorem drawBackgroundGroup_disabled {s : State} (hm : s.ppu.mask.getLsbD 3 = false) (x y : Nat) :
    drawBackgroundGroup x y s = forEach (drawGroupPixel (fun _ => 0) (fun _ => false) x y) (List.range 8) s := by
  unfold drawBackgroundGroup
  rw [hm, if_neg Bool.false_ne_true]
  rfl

/-- Settles O55: enabled or not, a group is eight pixels drawn. -/
theorem backgroundGroupPixels : Obligations.BackgroundGroupPixels := fun x y s _ _ hs => by
  cases hm : s.ppu.mask.getLsbD 3 with
  | true =>
    rw [drawBackgroundGroup_enabled hs hm]
    obtain ⟨t, ht, drawn, pixels⟩ := forEach_drawGroupPixel _ _ x y (List.range 8) hs
    refine ⟨t, ht, drawn, fun py px => ?_⟩
    obtain ⟨inside, outside⟩ := pixels py px
    rw [inGroup_range] at inside outside
    dsimp only
    simp only [if_true]
    split
    · exact ⟨(inside ‹_›).1, (inside ‹_›).2.trans decide_not.symm⟩
    · exact outside ‹_›
  | false =>
    rw [drawBackgroundGroup_disabled hm]
    obtain ⟨t, ht, drawn, pixels⟩ := forEach_drawGroupPixel (fun _ => 0) (fun _ => false) x y (List.range 8) hs
    refine ⟨t, ht, drawn, fun py px => ?_⟩
    obtain ⟨inside, outside⟩ := pixels py px
    rw [inGroup_range] at inside outside
    dsimp only
    simp only [Bool.false_eq_true, if_false]
    split
    · exact inside ‹_›
    · exact outside ‹_›

end Sys2Proof.Machine

/-! PROOFS. What sprite drawing leaves at each pixel (50 R363 to R365). -/

namespace Sys2Proof.Machine

/-- The state with another image. -/
def State.withImage (image : Grid Pixel) (s : State) : State := { s with ppu := { s.ppu with image := image } }

/-- What an operation would paint at a place, if anything. It must not look at the image. -/
abbrev Paint := State → Nat → Nat → Option (BitVec 6)

/-- The paint does not look at the image. -/
def Paint.Blind (paint : Paint) : Prop := ∀ image s, paint (s.withImage image) = paint s

/-- The operation ends well with character memory attached, and puts its paint on the image and changes nothing
else. -/
def Paints (op : State → Result Unit) (paint : Paint) : Prop := ∀ s, s.chr.isSome = true → ∃ image,
  op s = .ok () (s.withImage image) ∧
    ∀ y x, gridGet .black image y x = (paint s y x).elim (gridGet .black s.ppu.image y x) .colour

theorem Paints.congr {op : State → Result Unit} {paint paint' : Paint} (h : Paints op paint)
    (e : ∀ s y x, paint s y x = paint' s y x) : Paints op paint' := fun s hs => by
  obtain ⟨image, h1, h2⟩ := h s hs
  exact ⟨image, h1, fun y x => by rw [← e]; exact h2 y x⟩

theorem paints_nothing : Paints (fun s => .ok () s) fun _ _ _ => none := fun s _ => ⟨s.ppu.image, rfl, fun _ _ => rfl⟩

/-- An operation that first reads the state for a parameter. -/
theorem paints_param {β : Type} {p : State → β} {op : β → State → Result Unit} {paint : β → Paint}
    (h : ∀ b, Paints (op b) (paint b)) : Paints (fun s => op (p s) s) fun s => paint (p s) s := fun s hs => h (p s) s hs

/-- Of operations in a row the last one that paints a place has it. -/
theorem paints_forEach {f : Nat → State → Result Unit} {paint : Nat → Paint} (h : ∀ k, Paints (f k) (paint k))
    (blind : ∀ k, (paint k).Blind) :
    ∀ ks, Paints (forEach f ks) fun s y x => ks.reverse.findSome? fun k => paint k s y x
  | [] => paints_nothing
  | k :: ks => fun s hs => by
    obtain ⟨first, e1, g1⟩ := h k s hs
    obtain ⟨image, e2, g2⟩ := paints_forEach h blind ks (s.withImage first) hs
    refine ⟨image, (bind_of_ok e1).trans e2, fun y x => ?_⟩
    have same : ∀ j, paint j (s.withImage first) y x = paint j s y x := fun j => by rw [blind j]
    simp only [g2, same, List.reverse_cons, List.findSome?_append]
    cases ks.reverse.findSome? fun j => paint j s y x with
    | some c => rfl
    | none => simpa [State.withImage] using g1 y x

/-- A search that can succeed at one place only. -/
theorem findSome?_eq_of_unique {β : Type} {f : Nat → Option β} {j : Nat} :
    ∀ {ks : List Nat}, (∀ k ∈ ks, k ≠ j → f k = none) → ks.findSome? f = if j ∈ ks then f j else none
  | [], _ => rfl
  | k :: ks, h => by
    have rest := findSome?_eq_of_unique fun i hi => h i (List.mem_cons_of_mem k hi)
    rw [List.findSome?_cons, rest]
    by_cases e : k = j
    · subst e
      cases f k <;> simp
    · simp [h k List.mem_cons_self e, Ne.symm e]

/-- Two tests in a row, each with nothing as its other branch, are one test of both. -/
theorem if_if_eq_if {β : Type} {a b c : Prop} [Decidable a] [Decidable b] [Decidable c] {o : Option β}
    (h : a ∧ b ↔ c) : (if a then if b then o else none else none) = if c then o else none := by
  by_cases ha : a
  · by_cases hb : b
    · rw [if_pos ha, if_pos hb, if_pos (h.mp ⟨ha, hb⟩)]
    · rw [if_pos ha, if_neg hb, if_neg fun hc => hb (h.mpr hc).2]
  · rw [if_neg ha, if_neg fun hc => ha (h.mpr hc).1]

/-- The colour of column `c` of a sprite's row where it lands at `(y, x)`, and none where that pixel is transparent or
hidden (50 R364, R365). -/
def spritePixelColour (rec : SpriteRecord) (row : PlaneRow) (c : Nat) : Paint := fun s y x =>
  let pix := pixelValue row (if rec.attr.getLsbD 6 then 7 - c else c)
  if pix = 0 ∨ (rec.attr.getLsbD 5 = true ∧ gridGet false s.ppu.bgOpaque y x = true) then none
  else some ((ppuByte (0x3F10 + 4 * (rec.attr.toNat % 4) + pix) s).setWidth 6)

/-- The plane bytes of row `r` of a sprite (50 R359, R364). -/
def spritePlaneRow (rec : SpriteRecord) (r : Nat) (s : State) : PlaneRow :=
  let base := 0x1000 * (s.ppu.control.getLsbD 3).toNat + 16 * rec.tile.toNat +
    (if rec.attr.getLsbD 7 then 7 - r else r)
  ⟨ppuByte base s, ppuByte (base + 8) s⟩

theorem ppuByte_withImage (a : Nat) (image : Grid Pixel) (s : State) : ppuByte a (s.withImage image) = ppuByte a s :=
  ppuByte_congr a rfl rfl rfl rfl

theorem spritePixelColour_blind (rec : SpriteRecord) (row : PlaneRow) (c : Nat) :
    (spritePixelColour rec row c).Blind := fun image s => by
  funext y x
  simp only [spritePixelColour, ppuByte_withImage]
  rfl

theorem spritePlaneRow_withImage (rec : SpriteRecord) (r : Nat) (image : Grid Pixel) (s : State) :
    spritePlaneRow rec r (s.withImage image) = spritePlaneRow rec r s := by
  simp only [spritePlaneRow, ppuByte_withImage]
  rfl

/-- What one column of a sprite's row paints at row `py` of the image (50 R364). -/
def spritePixelPaint (rec : SpriteRecord) (row : PlaneRow) (py c : Nat) : Paint := fun s y x =>
  if y = py ∧ x = rec.x + c ∧ x < 256 then spritePixelColour rec row c s y x else none

/-- What row `r` of a sprite paints (50 R364). -/
def spriteRowPaint (rec : SpriteRecord) (r : Nat) : Paint := fun s y x =>
  if y = rec.y + r ∧ y < 240 ∧ rec.x ≤ x ∧ x < rec.x + 8 ∧ x < 256 then
    spritePixelColour rec (spritePlaneRow rec r s) (x - rec.x) s y x
  else none

/-- What a sprite shows at a place, by its record (50 R364, R365). -/
theorem spriteColour_eq (s : State) (n y x : Nat) :
    let sprite := spriteRecord s.ppu.spriteRam n
    spriteColour s n y x =
      if sprite.y ≤ y ∧ y < sprite.y + 8 ∧ y < 240 ∧ sprite.x ≤ x ∧ x < sprite.x + 8 ∧ x < 256 then
        spritePixelColour sprite (spritePlaneRow sprite (y - sprite.y) s) (x - sprite.x) s y x
      else none := rfl

theorem spritePixelPaint_elsewhere {rec : SpriteRecord} {row : PlaneRow} {py c y x : Nat} {s : State}
    (h : c ≠ x - rec.x) : spritePixelPaint rec row py c s y x = none := if_neg (by omega)

theorem spriteRowPaint_elsewhere {rec : SpriteRecord} {r y x : Nat} {s : State} (h : r ≠ y - rec.y) :
    spriteRowPaint rec r s y x = none := if_neg (by omega)

theorem spritePixelPaint_blind (rec : SpriteRecord) (row : PlaneRow) (py c : Nat) :
    (spritePixelPaint rec row py c).Blind := fun image s => by
  funext y x
  simp only [spritePixelPaint, spritePixelColour_blind rec row c image s]

theorem spriteRowPaint_blind (rec : SpriteRecord) (r : Nat) : (spriteRowPaint rec r).Blind := fun image s => by
  funext y x
  simp only [spriteRowPaint, spritePlaneRow_withImage, spritePixelColour_blind rec _ _ image s]

theorem spriteColour_blind (n : Nat) : Paint.Blind fun s => spriteColour s n := fun image s => by
  funext y x
  simp only [spriteColour_eq, spritePlaneRow_withImage, spritePixelColour_blind _ _ _ image s]
  rfl

/-- A pixel on the image is set to its colour, if it has one (50 R364, R365). -/
theorem drawSpritePixel_onImage (rec : SpriteRecord) (row : PlaneRow) (py : Nat) {c : Nat} {s : State}
    (hs : s.chr.isSome = true) (hx : rec.x + c < 256) : drawSpritePixel rec row py c s =
      .ok () ((spritePixelColour rec row c s py (rec.x + c)).elim s fun k => setPixel py (rec.x + c) k s) := by
  unfold drawSpritePixel spritePixelColour
  generalize pixelValue row (if rec.attr.getLsbD 6 then 7 - c else c) = pix
  dsimp only
  have index : 0x3F00 + (0x10 + 4 * (rec.attr.toNat % 4) + pix) = 0x3F10 + 4 * (rec.attr.toNat % 4) + pix := by omega
  rw [if_neg (Nat.not_le.mpr hx), colour_eq hs, index, bind_ok]
  by_cases transparent : pix = 0
  · rw [if_pos transparent, if_pos (.inl transparent)]
    rfl
  by_cases hidden : rec.attr.getLsbD 5 = true ∧ gridGet false s.ppu.bgOpaque py (rec.x + c) = true
  · rw [if_neg transparent, if_pos (Bool.and_eq_true_iff.mpr hidden), if_pos (.inr hidden)]
    rfl
  · rw [if_neg transparent, if_neg (hidden ∘ Bool.and_eq_true_iff.mp), if_neg (not_or.mpr ⟨transparent, hidden⟩)]
    rfl

theorem paints_spritePixel (rec : SpriteRecord) (row : PlaneRow) (py c : Nat) :
    Paints (drawSpritePixel rec row py c) (spritePixelPaint rec row py c) := fun s hs => by
  by_cases hx : rec.x + c < 256
  · rw [drawSpritePixel_onImage rec row py hs hx]
    unfold spritePixelPaint
    cases hc : spritePixelColour rec row c s py (rec.x + c) with
    | none =>
      refine ⟨s.ppu.image, rfl, fun y x => ?_⟩
      split
      · obtain ⟨rfl, rfl, -⟩ := ‹_ ∧ _ ∧ _›
        rw [hc]
        rfl
      · rfl
    | some k =>
      refine ⟨gridSet .black s.ppu.image py (rec.x + c) (.colour k), rfl, fun y x => ?_⟩
      rw [gridGet_set]
      by_cases here : y = py ∧ x = rec.x + c
      · obtain ⟨rfl, rfl⟩ := here
        simp [hc, hx]
      · rw [if_neg here, if_neg fun h => here ⟨h.1, h.2.1⟩]
        rfl
  · refine ⟨s.ppu.image, if_pos (Nat.le_of_not_lt hx), fun y x => ?_⟩
    rw [spritePixelPaint, if_neg (by omega)]
    rfl

/-- Of the eight columns of a row one can lie at a given place. -/
theorem findSome?_spritePixelPaint {rec : SpriteRecord} {r : Nat} (hy : rec.y + r < 240) (s : State) (y x : Nat) :
    ((List.range 8).reverse.findSome? fun c => spritePixelPaint rec (spritePlaneRow rec r s) (rec.y + r) c s y x) =
      spriteRowPaint rec r s y x := by
  rw [findSome?_eq_of_unique fun c _ hc => spritePixelPaint_elsewhere hc]
  simp only [spritePixelPaint, spriteRowPaint, List.mem_reverse, List.mem_range]
  exact if_if_eq_if (by omega)

theorem paints_spriteRow (rec : SpriteRecord) (r : Nat) : Paints (drawSpriteRow rec r) (spriteRowPaint rec r) :=
  fun s hs => by
  by_cases hy : rec.y + r < 240
  · obtain ⟨image, drawn, pixels⟩ := paints_forEach (paints_spritePixel rec (spritePlaneRow rec r s) (rec.y + r))
      (spritePixelPaint_blind _ _ _) (List.range 8) s hs
    refine ⟨image, ?_, fun y x => ?_⟩
    · unfold drawSpriteRow
      dsimp only
      rw [if_neg (Nat.not_le.mpr hy), bind_of_ok (patternRow_eq hs _ _ _)]
      exact drawn
    · rw [← findSome?_spritePixelPaint hy]
      exact pixels y x
  · refine ⟨s.ppu.image, if_pos (Nat.le_of_not_lt hy), fun y x => ?_⟩
    rw [spriteRowPaint, if_neg (by omega)]
    rfl

/-- A sprite is eight rows, of which one can lie at a given place. -/
theorem paints_sprite (n : Nat) : Paints (drawSprite n) fun s => spriteColour s n := by
  refine (paints_param (p := fun s => spriteRecord s.ppu.spriteRam n)
    fun sprite => paints_forEach (paints_spriteRow sprite) (spriteRowPaint_blind sprite) (List.range 8)).congr
    fun s y x => ?_
  rw [findSome?_eq_of_unique fun r _ hr => spriteRowPaint_elsewhere hr, spriteColour_eq]
  simp only [spriteRowPaint, List.mem_reverse, List.mem_range]
  exact if_if_eq_if (by omega)

theorem paints_sprites : Paints (forEach drawSprite (List.range 64).reverse) fun s y x =>
    (List.range 64).findSome? fun n => spriteColour s n y x :=
  (paints_forEach paints_sprite spriteColour_blind _).congr fun s y x => by rw [List.reverse_reverse]

/-- Settles O56: sprites are painted from 63 down to 0, so the lowest-numbered one that shows is on top. -/
theorem lowestNumberedSpriteWins : Obligations.LowestNumberedSpriteWins := fun s hs => by
  cases hm : s.ppu.mask.getLsbD 4 with
  | false =>
    refine ⟨s, ?_, rfl, fun _ => rfl, nofun⟩
    rw [drawSprites, hm, if_neg Bool.false_ne_true]
  | true =>
    obtain ⟨image, painted, pixels⟩ := paints_sprites s hs
    refine ⟨s.withImage image, ?_, rfl, nofun, fun _ y x => ?_⟩
    · rw [drawSprites, if_pos hm, painted]
    · show gridGet .black image y x = _
      rw [pixels]
      dsimp only
      cases (List.range 64).findSome? fun n => spriteColour s n y x <;> rfl

end Sys2Proof.Machine
